-- ==== Sys2Proof/Word.lean ====
section
/-! DEFINITION. Words, index types and the operand types of the commands.

Widths are those of spec/12_message_formats.md. Everything here is plain data. -/

namespace Sys2Proof

/-- A 24-bit two's-complement sample (00_scope, conventions; R5). -/
abbrev Sample := BitVec 24

/-- A 24-bit two's-complement filter coefficient, in units of 2^(-22) (R7). -/
abbrev Coeff := BitVec 24

/-- The 30 data bits of a PAYLOAD word (R169). -/
abbrev Payload := BitVec 30

/-- A control word, an answer word or a data word of an answer (12.2). -/
abbrev Word32 := BitVec 32

/-- A channel number (R20). -/
abbrev Chan := Fin 24

/-- A source number (R17). -/
abbrev SourceId := Fin 8

/-- An audio slot of the frame (12.1). -/
abbrev AudioSlot := Fin 32

/-- A section of the library (R113). -/
abbrev SectionId := Fin 96

/-- An equaliser page (R117). -/
abbrev Page := Fin 4

/-- A crossfade slot (R129). -/
abbrev FadeSlot := Fin 8

/-- The two zones of the cabin (00_scope). -/
inductive Zone where
  | a
  | b
  deriving DecidableEq, Repr

/-- The four gain lanes, numbered in this order by SET_RAMP (R65). -/
inductive Lane where
  | user
  | speed
  | mute
  | duck
  deriving DecidableEq, Repr

/-- One value for each zone. -/
structure PerZone (α : Type) where
  a : α
  b : α
  deriving DecidableEq, Repr

/-- The value of a zone. -/
def PerZone.get {α : Type} (p : PerZone α) : Zone → α
  | .a => p.a
  | .b => p.b

/-- Replaces the value of one zone. -/
def PerZone.set {α : Type} (p : PerZone α) : Zone → α → PerZone α
  | .a, v => { p with a := v }
  | .b, v => { p with b := v }

/-- One value for each lane. -/
structure PerLane (α : Type) where
  user : α
  speed : α
  mute : α
  duck : α
  deriving DecidableEq, Repr

/-- The value of a lane. -/
def PerLane.get {α : Type} (p : PerLane α) : Lane → α
  | .user => p.user
  | .speed => p.speed
  | .mute => p.mute
  | .duck => p.duck

/-- Replaces the value of one lane. -/
def PerLane.set {α : Type} (p : PerLane α) : Lane → α → PerLane α
  | .user, v => { p with user := v }
  | .speed, v => { p with speed := v }
  | .mute, v => { p with mute := v }
  | .duck, v => { p with duck := v }

/-- The fields of a frame between SYNC and CHECK (12.1). -/
structure FrameFields where
  control : Word32
  answer : Word32
  service : BitVec 8
  roll : BitVec 8
  slots : Vector Sample 32
  deriving DecidableEq, Repr

/-- The 880 bits of one frame on the ring (12.1). -/
structure RingFrame where
  sync : BitVec 16
  fields : FrameFields
  check : BitVec 16
  deriving DecidableEq, Repr

/-- What a ring command's header says of where it goes: the address and the zone bit (12.2, R153). -/
structure Route where
  address : BitVec 5
  zoneBit : Bool
  deriving DecidableEq, Repr

/-- The acts that one frame of the sample path makes beside its audio. The order of any two of them is left open by
the rules that own the state they meet in (R54, R66, R97, R126, R138, R162 to R168). -/
inductive FrameAct where
  /-- the control word is taken and the next answer word written (R155, R157) -/
  | control
  /-- the request bit is set or left (R163) -/
  | request
  /-- the marks and written samples reach the clip counters and peaks (R167) -/
  | meters
  /-- the occupied slots step and completed fades complete (R135 to R137) -/
  | fades
  /-- one prescaler counts the frame, and ticks if its count runs out (R59) -/
  | count (l : Lane)
  /-- the staleness counter counts the frame, and expires if it runs out (R93, R94) -/
  | staleness
  /-- the duck-line sample count counts the frame, and samples if it runs out (R79, R81) -/
  | duckLine
  deriving DecidableEq, Repr

/-- The acts of a frame that come first, in this order; acts it does not name follow in the order of the frame's
fields (assumption 3). -/
abbrev FrameOrder := List FrameAct

/-- The two words of SET_ZONE_OPTIONS (12.4). -/
structure ZoneOptionsWord where
  depth : BitVec 10
  ceiling : BitVec 12
  exponent : BitVec 4
  mask : BitVec 8
  speedPages : BitVec 8
  deriving DecidableEq, Repr

/-- The two words of SET_SPEED_POLICY (12.4). -/
structure PolicyWord where
  jump : BitVec 10
  hysteresis : BitVec 6
  timeout : BitVec 10
  fallback : BitVec 10
  deriving DecidableEq, Repr

/-- A breakpoint word of LOAD_SDV_CURVE (12.4). -/
structure BreakpointWord where
  speed : BitVec 10
  boost : BitVec 10
  pagePresent : Bool
  page : BitVec 2
  deriving DecidableEq, Repr

/-- The two fixed words of LOAD_CHANNEL, less the tap count (12.4). -/
structure ChannelWord where
  channel : BitVec 8
  slotPresent : Bool
  slot : BitVec 5
  zone : Bool
  x : BitVec 5
  y : BitVec 5
  trim : BitVec 10
  weight : BitVec 5
  deriving DecidableEq, Repr

/-- A tap word of LOAD_CHANNEL (12.4). -/
structure TapWord where
  source : BitVec 8
  gain : BitVec 12
  duck : Bool
  deriving DecidableEq, Repr

/-- Five coefficients of a section, in the order of the payload (R7, 12.4). -/
structure Coeffs where
  b0 : Coeff
  b1 : Coeff
  b2 : Coeff
  a1 : Coeff
  a2 : Coeff
  deriving DecidableEq, Repr

/-- One flag for each notice kind, in the order of their codes (R161, 12.4). -/
structure NoticeSet where
  relock : Bool
  speedLost : Bool
  ctrlLost : Bool
  clip : Bool
  pageSettled : Bool
  duckLine : Bool
  deriving DecidableEq, Repr

/-- A command of the command index (12.3) with its payload fields at the widths of 12.4. -/
inductive Command where
  | assignAddress (address : BitVec 5) (twin : BitVec 8)
  | deviceReset
  | readTable (selector part : BitVec 8)
  | setBalance (setting : BitVec 8)
  | setFade (setting : BitVec 8)
  | loadBalanceCurve (entries : Vector (BitVec 12) 32)
  | loadFadeCurve (entries : Vector (BitVec 12) 32)
  | setChannelTrim (channel : BitVec 8) (trim : BitVec 10)
  | setChannelMute (channel mute : BitVec 8)
  | setVolume (step : BitVec 8)
  | stepVolume (delta : BitVec 8)
  | loadVolumeCurve (entries : Vector (BitVec 12) 64)
  | setZoneMute (value : BitVec 8)
  | setDuck (value : BitVec 8)
  | setZoneOptions (options : ZoneOptionsWord)
  | setRamp (lane : BitVec 4) (period : BitVec 10) (first second : BitVec 8)
  | vehicleState (speed : BitVec 10) (valid : Bool)
  | setSpeedPolicy (policy : PolicyWord)
  | loadSdvCurve (points : List BreakpointWord)
  | loadSource (source : BitVec 8) (slotPresent : Bool) (slot : BitVec 5)
  | loadChannel (record : ChannelWord) (taps : List TapWord)
  | loadSection (index : BitVec 8) (coeffs : Coeffs)
  | loadProgram (page : BitVec 4) (channel : BitVec 8) (entries : List (BitVec 8))
  | selectPage (page : BitVec 4)
  | setNoticeEnable (kinds : NoticeSet)
  | statusPoll
  | rollCall
  | rollCallAssign (mode bit : BitVec 4)
  | readMeters
  deriving DecidableEq, Repr

end Sys2Proof
end

