-- ==== Sys2Proof/Syntax.lean ====
section
/-! DEFINITION. The commands of the block: one constructor for each row of spec/opcode_table.json, in the table's
order. A ring command carries the route of its header and its payload fields at the widths of 12.4. -/

namespace Sys2Proof

/-- A step of the part, as spec/opcode_table.json lists them. -/
inductive Instr where
  /-- the reset pin is asserted (R160) -/
  | resetPinAsserted
  /-- the reset pin is released, with the straps at these levels (R160, R153) -/
  | resetPinReleased (straps : BitVec 5) (twinStrap : Bool)
  /-- a good SYNC is found in the stream, at the head of this frame (R148) -/
  | syncFound (f : RingFrame)
  /-- a frame with a good SYNC and a good CHECK at the expected place, the DUCK pin at this level (R146, R147) -/
  | frame (f : FrameFields) (duckPin : Bool) (order : FrameOrder)
  /-- a frame with a good SYNC and this CHECK, which is not the check value of its fields (R147, R151) -/
  | damagedFrame (f : FrameFields) (check : BitVec 16) (duckPin : Bool) (order : FrameOrder)
  /-- other bits than 0xB5C3 at the expected place (R148) -/
  | syncBad (f : RingFrame)
  /-- nothing came within 1.5 frame periods (R148) -/
  | syncMissing
  /-- a CLEAR control word (R158) -/
  | clear
  /-- the answer sender leaves ANSWERING for an ASSIGN_ADDRESS (R154) -/
  | newAddressTakesEffect
  /-- the answer sender leaves ANSWERING for a DEVICE_RESET (R159) -/
  | deviceResetTakesEffect
  /-- the fade in this slot makes its last step (R136) -/
  | fadeComplete (slot : FadeSlot)
  /-- the head of the queue is granted this slot (R136) -/
  | queueGrant (slot : FadeSlot)
  /-- the count of this lane's prescaler runs out (R59, R63) -/
  | laneTick (lane : Lane)
  /-- the staleness counter runs out (R94) -/
  | stalenessExpiry
  /-- the duck-line sample count runs out, the pin at this level (R81) -/
  | duckSample (pin : Bool)
  | assignAddress (r : Route) (address : BitVec 5) (twin : BitVec 8)
  | deviceReset (r : Route)
  | readTable (r : Route) (selector part : BitVec 8)
  | setBalance (r : Route) (setting : BitVec 8)
  | setFade (r : Route) (setting : BitVec 8)
  | loadBalanceCurve (r : Route) (entries : Vector (BitVec 12) 32)
  | loadFadeCurve (r : Route) (entries : Vector (BitVec 12) 32)
  | setChannelTrim (r : Route) (channel : BitVec 8) (trim : BitVec 10)
  | setChannelMute (r : Route) (channel mute : BitVec 8)
  | setVolume (r : Route) (step : BitVec 8)
  | stepVolume (r : Route) (delta : BitVec 8)
  | loadVolumeCurve (r : Route) (entries : Vector (BitVec 12) 64)
  | setZoneMute (r : Route) (value : BitVec 8)
  | setDuck (r : Route) (value : BitVec 8)
  | setZoneOptions (r : Route) (options : ZoneOptionsWord)
  | setRamp (r : Route) (lane : BitVec 4) (period : BitVec 10) (first second : BitVec 8)
  | vehicleState (r : Route) (speed : BitVec 10) (valid : Bool)
  | setSpeedPolicy (r : Route) (policy : PolicyWord)
  | loadSdvCurve (r : Route) (points : List BreakpointWord)
  | loadSource (r : Route) (source : BitVec 8) (slotPresent : Bool) (slot : BitVec 5)
  | loadChannel (r : Route) (record : ChannelWord) (taps : List TapWord)
  | loadSection (r : Route) (index : BitVec 8) (coeffs : Coeffs)
  | loadProgram (r : Route) (page : BitVec 4) (channel : BitVec 8) (entries : List (BitVec 8))
  | selectPage (r : Route) (page : BitVec 4)
  | setNoticeEnable (r : Route) (kinds : NoticeSet)
  | statusPoll (r : Route)
  | rollCall (r : Route)
  | rollCallAssign (r : Route) (mode bit : BitVec 4)
  | readMeters (r : Route)
  deriving DecidableEq, Repr

end Sys2Proof
end

