-- ==== Sys2Proof/Machine/Types.lean ====
section
/-! DEFINITION. The records of the block's ten parts (spec/00_scope.md, block diagram). INVENTORY.md lists every field
with its rule and reset value. -/

namespace Sys2Proof.Machine

/-- The result codes 0 to 9 of an answer, in order (12.2, R169). -/
inductive ResultCode where
  | ok
  | clamped
  | unknownCommand
  | badLength
  | badIndex
  | badOrder
  | badRef
  | unstable
  | inUse
  | slotConflict
  deriving DecidableEq, Repr

/-! ### Pins and the ring's output -/

/-- The levels on the pins (00_scope; R79, R153, R160). -/
structure Pins where
  /-- the reset pin is asserted -/
  reset : Bool
  straps : BitVec 5
  twinStrap : Bool
  duck : Bool
  deriving DecidableEq, Repr

/-- How the part judged what passed (R146, R147). -/
inductive Judged where
  | intact
  | damaged
  /-- no frame of the sample path: passed as it arrived -/
  | untouched
  deriving DecidableEq, Repr

/-- A frame as it left the part. -/
structure OutFrame where
  frame : RingFrame
  judged : Judged
  deriving DecidableEq, Repr

/-! ### Ring Port -/

/-- The lock state (R148). -/
inductive Lock where
  | unlocked
  | acquiring
  | locked
  deriving DecidableEq, Repr

/-- The output delay of a channel (R31): two entries, an empty one written as 0. -/
structure Delay where
  older : Option Sample
  newer : Option Sample
  deriving DecidableEq, Repr

/-- The fields of a header word below its type (12.2). -/
structure Header where
  route : Route
  space : BitVec 4
  command : BitVec 8
  count : BitVec 8
  deriving DecidableEq, Repr

/-- The message assembler (R155). -/
inductive Assembler where
  | idle
  | collecting (header : Header) (outstanding : Nat) (words : List Payload)
  | skipping (outstanding : Nat)
  deriving DecidableEq, Repr

/-- What takes effect when the answer sender leaves ANSWERING (R154, R159). -/
inductive Deferred where
  | nothing
  | newAddress (address : Fin 31) (twin : Bool)
  | deviceReset
  deriving DecidableEq, Repr

/-- The answer sender (R157): QUIET, or ANSWERING with the next word, the words after it and what is deferred. -/
inductive Sender where
  | quiet
  | answering (next : Word32) (rest : List Word32) (after : Deferred)
  deriving DecidableEq, Repr

/-- The Ring Port (chapter 10). -/
structure RingPort where
  lock : Lock
  misses : Nat
  held : Vector Sample 8
  delays : Vector Delay 24
  assembler : Assembler
  sender : Sender
  address : Fin 31
  twin : Bool
  deriving DecidableEq, Repr

/-! ### Mixer -/

/-- A tap (R21). -/
structure Tap where
  source : SourceId
  gain : Int
  duck : Bool
  deriving DecidableEq, Repr

/-- A channel record (R20). The channel is enabled when `out` is present. -/
structure ChannelRecord where
  out : Option AudioSlot
  zone : Zone
  x : Int
  y : Nat
  trim : Int
  weight : Nat
  taps : List Tap
  deriving DecidableEq, Repr

/-! ### Equaliser -/

/-- A section record (R113). -/
structure Section where
  valid : Bool
  coeffs : Coeffs
  live : Nat
  deriving DecidableEq, Repr

/-- The history of one chain position (R9). -/
structure Position where
  x1 : Sample
  x2 : Sample
  y1 : Sample
  y2 : Sample
  deriving DecidableEq, Repr

/-- A chain state: one position for each entry of its program (R124). -/
abbrev Chain := List Position

/-- A page program: section indices in program order (R117). -/
abbrev Program := List SectionId

/-- The Equaliser (chapter 8). -/
structure Equaliser where
  sections : Vector Section 96
  programs : Vector (Vector Program 24) 4
  active : Vector Chain 24
  target : Vector (Option Chain) 24
  deriving DecidableEq, Repr

/-! ### Page Scheduler -/

/-- The switch state of a channel (R128). The target page and next target of a fade stand in its slot. -/
inductive Switch where
  | steady (page : Page)
  | queued (page pendingPage : Page)
  | fading (page : Page) (slot : FadeSlot)
  deriving DecidableEq, Repr

/-- An occupied crossfade slot (R129). -/
structure Fade where
  channel : Chan
  old : Page
  target : Page
  k : Nat
  length : Nat
  next : Option Page
  deriving DecidableEq, Repr

/-- The Page Scheduler (chapter 9). -/
structure Scheduler where
  switch : Vector Switch 24
  slots : Vector (Option Fade) 8
  queue : List Chan
  settled : PerZone Bool
  deriving DecidableEq, Repr

/-! ### Gain Planner -/

/-- The cabin record (R34); entry k of a curve stands at index k - 1. -/
structure Cabin where
  balance : Int
  fade : Int
  balanceCurve : Vector Nat 32
  fadeCurve : Vector Nat 32
  deriving DecidableEq, Repr

/-- A breakpoint of an SDV curve (R99). -/
structure Breakpoint where
  speed : Nat
  boost : Int
  page : Option Page
  deriving DecidableEq, Repr

/-- What the Gain Planner holds for a zone (R38, R47, R72, R75, R99, R103, R104, R108). -/
structure ZoneRecord where
  step : Fin 64
  curve : Vector Int 64
  mute : Bool
  commandDuck : Bool
  depth : Nat
  mask : Bool
  ceiling : Int
  exponent : Nat
  speedPages : Bool
  sdv : List Breakpoint
  boost : Int
  band : Nat
  userPage : Page
  requestedPage : Page
  deriving DecidableEq, Repr

/-- One integer for every lane of every channel and zone: the 74 targets of R52, or the 74 currents of R58. -/
structure LaneValues where
  user : Vector Int 24
  speed : Vector Int 24
  mute : Vector Int 24
  duck : PerZone Int
  deriving DecidableEq, Repr

/-- The Gain Planner (chapters 3, 5 and 7). -/
structure GainPlanner where
  cabin : Cabin
  zones : PerZone ZoneRecord
  mutes : Vector Bool 24
  targets : LaneValues
  deriving DecidableEq, Repr

/-! ### Ramp Engine -/

/-- A prescaler and the steps of its lane (R59, R62). `first` is the step of the user or speed lane and the attack of
the mute or duck lane; `second` is the release, and 0 for the user and speed lanes (R71). -/
structure LaneSettings where
  period : Nat
  first : Nat
  second : Nat
  count : Nat
  deriving DecidableEq, Repr

/-- The Ramp Engine (chapter 4). -/
structure RampEngine where
  lanes : PerLane LaneSettings
  currents : LaneValues
  deriving DecidableEq, Repr

/-! ### Speed Tracker, Duck Line Input, Output Stage, Notice Unit -/

/-- The Speed Tracker (R85, R86). `timeout` is in units of 480 frames. -/
structure SpeedTracker where
  /-- FRESH, else STALE -/
  fresh : Bool
  accepted : Nat
  effective : Nat
  candidate : Option Nat
  counter : Nat
  jump : Nat
  hysteresis : Nat
  timeout : Nat
  fallback : Nat
  deriving DecidableEq, Repr

/-- The Duck Line Input (R79, R80). -/
structure DuckLine where
  count : Nat
  previous : Bool
  level : Bool
  deriving DecidableEq, Repr

/-- The Output Stage (R167). -/
structure OutputStage where
  clips : Vector Nat 24
  peaks : PerZone Nat
  deriving DecidableEq, Repr

/-- The roll-call assignment (R165). -/
inductive RollAssignment where
  | off
  | whenPending (bit : Fin 8)
  | whenClear (bit : Fin 8)
  deriving DecidableEq, Repr

/-- The Notice Unit (R161, R165). -/
structure NoticeUnit where
  enabled : NoticeSet
  pending : NoticeSet
  roll : RollAssignment
  deriving DecidableEq, Repr

end Sys2Proof.Machine
end

