-- ==== Sys2Proof/Machine/Arith.lean ====
section
/-! DEFINITION. The arithmetic of chapter 1: clamping, saturation, scaling by a gain, filter sections, chains, the
crossfade blend, and the net gain. Everything is exact on integers; a value is narrowed only where a rule says so. -/

namespace Sys2Proof.Machine

/-- Replaces a value outside `lo` to `hi` by the nearer end (00_scope, conventions). -/
def clamp (lo hi v : Int) : Int := max lo (min hi v)

/-- Replaces a natural number outside `lo` to `hi` by the nearer end (00_scope, conventions). -/
def clampNat (lo hi v : Nat) : Nat := max lo (min hi v)

/-- The smallest 24-bit sample. -/
def sampleMin : Int := -8388608

/-- The largest 24-bit sample. -/
def sampleMax : Int := 8388607

/-- The value saturated to 24 bits, as a sample (R5). -/
def saturate (v : Int) : Sample := BitVec.ofInt 24 (clamp sampleMin sampleMax v)

/-- A saturation happens: saturating changes the value (R5). -/
def saturates (v : Int) : Bool := decide (v < sampleMin) || decide (sampleMax < v)

/-- The doubling table M[0] to M[47] (R2): 2^23 × 2^(r/48) rounded to the nearest integer, a half up.
`doublingTable_rounds` in Tests checks every entry against that. -/
def doublingTable : List Nat :=
  [8388608, 8510623, 8634413, 8760003, 8887421, 9016691, 9147842, 9280900, 9415894, 9552851, 9691801, 9832771] ++
  [9975792, 10120894, 10268105, 10417458, 10568984, 10722713, 10878679, 11036913, 11197448, 11360319, 11525559] ++
  [11693202, 11863283, 12035839, 12210904, 12388516, 12568711, 12751527, 12937002, 13125175, 13316085, 13509772] ++
  [13706276, 13905639, 14107901, 14313105, 14521294, 14732511, 14946800, 15164206, 15384775, 15608552, 15835583] ++
  [16065917, 16299601, 16536684]

/-- Entry M[r] of the doubling table (R2). -/
def doubling (r : Nat) : Int := (doublingTable.getD r 0 : Nat)

/-- S(x, g): a sample scaled by a gain, not saturated (R3). `/` and `%` of Int by a positive number are the floor and
its remainder. -/
def scale (x : Sample) (g : Int) : Int :=
  if g ≤ -768 then 0
  else
    let q := g / 48
    let r := (g % 48).toNat
    let s := (23 - q).toNat
    (x.toInt * doubling r + 2 ^ (s - 1)) / 2 ^ s

/-- A position with zero history (R9). -/
def Position.zero : Position := { x1 := 0, x2 := 0, y1 := 0, y2 := 0 }

/-- The output of a section before saturation (R8): floor((acc + 2^21) / 2^22). -/
def sectionSum (c : Coeffs) (h : Position) (x : Sample) : Int :=
  (c.b0.toInt * x.toInt + c.b1.toInt * h.x1.toInt + c.b2.toInt * h.x2.toInt
    - c.a1.toInt * h.y1.toInt - c.a2.toInt * h.y2.toInt + 2 ^ 21) / 2 ^ 22

/-- The history after the position has run on `x` and produced `y` (R9). -/
def Position.advance (h : Position) (x y : Sample) : Position := { x1 := x, x2 := h.x1, y1 := y, y2 := h.y1 }

/-- What running a chain gives: its positions, its output, and whether a section saturated. -/
structure ChainRun where
  chain : Chain
  out : Sample
  clipped : Bool
  deriving DecidableEq, Repr

/-- Runs a chain on one input (R10): each section on the output of the one before, at its own position. The lists have
one length (R124); a position the chain lacks is taken as zero history. -/
def runChain : List Coeffs → Chain → Sample → ChainRun
  | [], _, x => { chain := [], out := x, clipped := false }
  | c :: cs, hs, x =>
    let h := hs.headD Position.zero
    let v := sectionSum c h x
    let y := saturate v
    let rest := runChain cs hs.tail y
    { chain := h.advance x y :: rest.chain, out := rest.out, clipped := saturates v || rest.clipped }

/-- The blend of the old output `o` and the new output `n` in frame `j` of a fade of length `len`, before saturation
(R12). -/
def blend (o n : Sample) (j len : Nat) : Int :=
  o.toInt + ((n.toInt - o.toInt) * (j : Int) + (len : Int) / 2) / (len : Int)

/-- The net gain of a channel from its user, speed and mute currents (R51). -/
def netGain (user speed mute : Int) : Int := clamp (-768) 96 (user + speed + mute)

/-- The magnitude of a sample, as the peak meters take it (R167). -/
def magnitude (x : Sample) : Nat := x.toInt.natAbs

end Sys2Proof.Machine
end

