-- ==== Sys2Proof/Machine/Operands.lean ====
section
/-! DEFINITION. Reading the words of messages and writing the words of answers (chapter 12): the check field, control
words, headers, the command index with its lengths, the payload layouts, and the packing of fields into words. -/

namespace Sys2Proof.Machine

/-! ### The check field -/

/-- The SYNC pattern (12.1). -/
def syncPattern : BitVec 16 := 0xB5C3

/-- One bit through the CRC register (R147). -/
def crcBit (reg : BitVec 16) (bit : Bool) : BitVec 16 :=
  if bit ^^ reg.msb then (reg <<< 1) ^^^ 0x1021 else reg <<< 1

/-- The `n` low bits of `v` through the CRC register, most significant first (R147). -/
def crcBits : Nat → Nat → BitVec 16 → BitVec 16
  | 0, _, reg => reg
  | n + 1, v, reg => crcBits n v (crcBit reg (v.testBit n))

/-- The check value of the fields from CONTROL to slot 31 (R147). -/
def checkValue (f : FrameFields) : BitVec 16 :=
  let head := crcBits 8 f.roll.toNat (crcBits 8 f.service.toNat
    (crcBits 32 f.answer.toNat (crcBits 32 f.control.toNat 0xFFFF)))
  f.slots.toList.foldl (fun reg w => crcBits 24 w.toNat reg) head

/-! ### Fields of words -/

/-- A one-bit field. -/
def flagAt {n : Nat} (w : BitVec n) (i : Nat) : Bool := w.getLsbD i

/-- The type of a control word, its top two bits (R169). -/
inductive ControlType where
  | idle
  | header
  | payload
  | clear
  deriving DecidableEq, Repr

/-- The type of a control word (R169). -/
def controlType (w : Word32) : ControlType :=
  match flagAt w 31, flagAt w 30 with
  | false, false => .idle
  | false, true => .header
  | true, false => .payload
  | true, true => .clear

/-- The header a HEADER word carries (12.2). -/
def readHeader (w : Word32) : Header :=
  { route := { address := w.extractLsb' 25 5, zoneBit := flagAt w 24 }, space := w.extractLsb' 20 4,
    command := w.extractLsb' 12 8, count := w.extractLsb' 4 8 }

/-- The 30 data bits of a PAYLOAD word (12.2). -/
def readPayload (w : Word32) : Payload := w.extractLsb' 0 30

/-! ### The command index and the payload layouts -/

/-- How a completed message reads (R156, steps 2, 4 and 5). -/
inductive Reading where
  | unknown
  | badLength
  | command (c : Command)
  deriving DecidableEq, Repr

/-- Two 12-bit entries of a curve word (12.4). -/
def curveEntries (ws : List Payload) : List (BitVec 12) :=
  ws.flatMap fun w => [w.extractLsb' 18 12, w.extractLsb' 6 12]

/-- `n` curve entries as a vector. The length has been checked, so no entry is lacking. -/
def curveVector (n : Nat) (ws : List Payload) : Vector (BitVec 12) n :=
  Vector.ofFn fun i => (curveEntries ws).getD i.val 0

/-- A breakpoint word (12.4). -/
def readBreakpoint (w : Payload) : BreakpointWord :=
  { speed := w.extractLsb' 20 10, boost := w.extractLsb' 10 10, pagePresent := flagAt w 9, page := w.extractLsb' 7 2 }

/-- A tap word (12.4). -/
def readTap (w : Payload) : TapWord :=
  { source := w.extractLsb' 22 8, gain := w.extractLsb' 10 12, duck := flagAt w 9 }

/-- The two fixed words of LOAD_CHANNEL (12.4). -/
def readChannelWords (w v : Payload) : ChannelWord :=
  { channel := w.extractLsb' 22 8, slotPresent := flagAt w 21, slot := w.extractLsb' 16 5, zone := flagAt w 15,
    x := w.extractLsb' 7 5, y := w.extractLsb' 2 5, trim := v.extractLsb' 20 10, weight := v.extractLsb' 15 5 }

/-- The notice kinds of SET_NOTICE_ENABLE, RELOCK first (12.4). -/
def readKinds (w : Payload) : NoticeSet :=
  { relock := flagAt w 29, speedLost := flagAt w 28, ctrlLost := flagAt w 27, clip := flagAt w 26,
    pageSettled := flagAt w 25, duckLine := flagAt w 24 }

/-- The commands of space 1, Port. -/
def readPort (code : Nat) (ws : List Payload) : Reading :=
  match code with
  | 1 =>
    match ws with
    | [w] => .command (.assignAddress (w.extractLsb' 25 5) (w.extractLsb' 17 8))
    | _ => .badLength
  | 2 =>
    match ws with
    | [] => .command .deviceReset
    | _ => .badLength
  | 3 =>
    match ws with
    | [w] => .command (.readTable (w.extractLsb' 22 8) (w.extractLsb' 14 8))
    | _ => .badLength
  | _ => .unknown

/-- The commands of space 2, Cabin gain. -/
def readCabinGain (code : Nat) (ws : List Payload) : Reading :=
  match code with
  | 1 =>
    match ws with
    | [w] => .command (.setBalance (w.extractLsb' 22 8))
    | _ => .badLength
  | 2 =>
    match ws with
    | [w] => .command (.setFade (w.extractLsb' 22 8))
    | _ => .badLength
  | 3 =>
    if ws.length = 16 then .command (.loadBalanceCurve (curveVector 32 ws)) else .badLength
  | 4 =>
    if ws.length = 16 then .command (.loadFadeCurve (curveVector 32 ws)) else .badLength
  | 5 =>
    match ws with
    | [w] => .command (.setChannelTrim (w.extractLsb' 22 8) (w.extractLsb' 12 10))
    | _ => .badLength
  | 6 =>
    match ws with
    | [w] => .command (.setChannelMute (w.extractLsb' 22 8) (w.extractLsb' 14 8))
    | _ => .badLength
  | _ => .unknown

/-- The commands of space 3, Zone gain. -/
def readZoneGain (code : Nat) (ws : List Payload) : Reading :=
  match code with
  | 1 =>
    match ws with
    | [w] => .command (.setVolume (w.extractLsb' 22 8))
    | _ => .badLength
  | 2 =>
    match ws with
    | [w] => .command (.stepVolume (w.extractLsb' 22 8))
    | _ => .badLength
  | 3 =>
    if ws.length = 32 then .command (.loadVolumeCurve (curveVector 64 ws)) else .badLength
  | 4 =>
    match ws with
    | [w] => .command (.setZoneMute (w.extractLsb' 22 8))
    | _ => .badLength
  | 5 =>
    match ws with
    | [w] => .command (.setDuck (w.extractLsb' 22 8))
    | _ => .badLength
  | 6 =>
    match ws with
    | [w, v] =>
      .command (.setZoneOptions
        { depth := w.extractLsb' 20 10, ceiling := w.extractLsb' 8 12, exponent := w.extractLsb' 4 4,
          mask := v.extractLsb' 22 8, speedPages := v.extractLsb' 14 8 })
    | _ => .badLength
  | _ => .unknown

/-- The command of space 4, Ramp. -/
def readRamp (code : Nat) (ws : List Payload) : Reading :=
  match code with
  | 1 =>
    match ws with
    | [w] =>
      .command (.setRamp (w.extractLsb' 26 4) (w.extractLsb' 16 10) (w.extractLsb' 8 8) (w.extractLsb' 0 8))
    | _ => .badLength
  | _ => .unknown

/-- The commands of space 5, Speed. -/
def readSpeed (code : Nat) (ws : List Payload) : Reading :=
  match code with
  | 1 =>
    match ws with
    | [w] => .command (.vehicleState (w.extractLsb' 20 10) (flagAt w 19))
    | _ => .badLength
  | 2 =>
    match ws with
    | [w, v] =>
      .command (.setSpeedPolicy
        { jump := w.extractLsb' 20 10, hysteresis := w.extractLsb' 14 6, timeout := w.extractLsb' 4 10,
          fallback := v.extractLsb' 20 10 })
    | _ => .badLength
  | 3 =>
    match ws with
    | w :: ps =>
      if ps.length = (w.extractLsb' 22 8).toNat then .command (.loadSdvCurve (ps.map readBreakpoint))
      else .badLength
    | _ => .badLength
  | _ => .unknown

/-- The commands of space 6, Routing. -/
def readRouting (code : Nat) (ws : List Payload) : Reading :=
  match code with
  | 1 =>
    match ws with
    | [w] => .command (.loadSource (w.extractLsb' 22 8) (flagAt w 21) (w.extractLsb' 16 5))
    | _ => .badLength
  | 2 =>
    match ws with
    | w :: v :: ts =>
      if ts.length = (w.extractLsb' 12 3).toNat then
        .command (.loadChannel (readChannelWords w v) (ts.map readTap))
      else .badLength
    | _ => .badLength
  | _ => .unknown

/-- The commands of space 7, Equaliser. -/
def readEqualiser (code : Nat) (ws : List Payload) : Reading :=
  match code with
  | 1 =>
    match ws with
    | [i, b0, b1, b2, a1, a2] =>
      .command (.loadSection (i.extractLsb' 22 8)
        { b0 := b0.extractLsb' 6 24, b1 := b1.extractLsb' 6 24, b2 := b2.extractLsb' 6 24, a1 := a1.extractLsb' 6 24,
          a2 := a2.extractLsb' 6 24 })
    | _ => .badLength
  | 2 =>
    match ws with
    | w :: es =>
      if es.length = (w.extractLsb' 14 4).toNat then
        .command (.loadProgram (w.extractLsb' 26 4) (w.extractLsb' 18 8) (es.map fun e => e.extractLsb' 22 8))
      else .badLength
    | _ => .badLength
  | 3 =>
    match ws with
    | [w] => .command (.selectPage (w.extractLsb' 26 4))
    | _ => .badLength
  | _ => .unknown

/-- The commands of space 8, Notices. -/
def readNotices (code : Nat) (ws : List Payload) : Reading :=
  match code with
  | 1 =>
    match ws with
    | [w] => .command (.setNoticeEnable (readKinds w))
    | _ => .badLength
  | 2 =>
    match ws with
    | [] => .command .statusPoll
    | _ => .badLength
  | 3 =>
    match ws with
    | [] => .command .rollCall
    | _ => .badLength
  | 4 =>
    match ws with
    | [w] => .command (.rollCallAssign (w.extractLsb' 26 4) (w.extractLsb' 22 4))
    | _ => .badLength
  | 5 =>
    match ws with
    | [] => .command .readMeters
    | _ => .badLength
  | _ => .unknown

/-- The command of a space and code with these payload words, or how it fails: UNKNOWN_COMMAND where 12.3 has no such
space and code, BAD_LENGTH where the payload count is not the one it requires (R156 steps 2 and 4, R171). -/
def readMessage (space : BitVec 4) (code : BitVec 8) (ws : List Payload) : Reading :=
  match space.toNat with
  | 1 => readPort code.toNat ws
  | 2 => readCabinGain code.toNat ws
  | 3 => readZoneGain code.toNat ws
  | 4 => readRamp code.toNat ws
  | 5 => readSpeed code.toNat ws
  | 6 => readRouting code.toNat ws
  | 7 => readEqualiser code.toNat ws
  | 8 => readNotices code.toNat ws
  | _ => .unknown

/-- The space and code of a command (12.3). -/
def commandCode : Command → BitVec 4 × BitVec 8
  | .assignAddress .. => (1, 1)
  | .deviceReset => (1, 2)
  | .readTable .. => (1, 3)
  | .setBalance .. => (2, 1)
  | .setFade .. => (2, 2)
  | .loadBalanceCurve .. => (2, 3)
  | .loadFadeCurve .. => (2, 4)
  | .setChannelTrim .. => (2, 5)
  | .setChannelMute .. => (2, 6)
  | .setVolume .. => (3, 1)
  | .stepVolume .. => (3, 2)
  | .loadVolumeCurve .. => (3, 3)
  | .setZoneMute .. => (3, 4)
  | .setDuck .. => (3, 5)
  | .setZoneOptions .. => (3, 6)
  | .setRamp .. => (4, 1)
  | .vehicleState .. => (5, 1)
  | .setSpeedPolicy .. => (5, 2)
  | .loadSdvCurve .. => (5, 3)
  | .loadSource .. => (6, 1)
  | .loadChannel .. => (6, 2)
  | .loadSection .. => (7, 1)
  | .loadProgram .. => (7, 2)
  | .selectPage .. => (7, 3)
  | .setNoticeEnable .. => (8, 1)
  | .statusPoll => (8, 2)
  | .rollCall => (8, 3)
  | .rollCallAssign .. => (8, 4)
  | .readMeters => (8, 5)

/-- A space and code that 12.3 marks "data": they answer with data words and are dropped when broadcast. -/
def isDataCode (space : BitVec 4) (code : BitVec 8) : Bool :=
  (space, code) == (1, 3) || (space, code) == (8, 2) || (space, code) == (8, 5)

/-! ### Writing words -/

/-- A field of a word: its width and its value, read modulo 2^width (two's complement for a negative value). -/
structure Field where
  width : Nat
  value : Int

/-- An unsigned field. -/
def nat (width value : Nat) : Field := { width := width, value := value }

/-- A signed field. -/
def int (width : Nat) (value : Int) : Field := { width := width, value := value }

/-- A one-bit flag. -/
def flag (b : Bool) : Field := nat 1 b.toNat

/-- Fields packed from bit 31 downward with no gap, the bits below them 0 (R169, R170). -/
def packWord (fs : List Field) : Word32 :=
  let packed := fs.foldl (fun (acc : Nat × Nat) f =>
    (acc.1 + f.width, acc.2 * 2 ^ f.width + (f.value % 2 ^ f.width).toNat)) (0, 0)
  BitVec.ofNat 32 (packed.2 * 2 ^ (32 - packed.1))

/-- The number of a result code (12.2). -/
def ResultCode.number : ResultCode → Nat
  | .ok => 0
  | .clamped => 1
  | .unknownCommand => 2
  | .badLength => 3
  | .badIndex => 4
  | .badOrder => 5
  | .badRef => 6
  | .unstable => 7
  | .inUse => 8
  | .slotConflict => 9

/-- OK, or CLAMPED where a value was clamped. -/
def clampedIf (b : Bool) : ResultCode := if b then .clamped else .ok

/-- The result word: result code, space and command echoed, data count (12.2). -/
def resultWord (code : ResultCode) (space : BitVec 4) (command : BitVec 8) (count : Nat) : Word32 :=
  packWord [nat 4 code.number, nat 4 space.toNat, nat 8 command.toNat, nat 8 count]

/-- Splits a list into pairs, for words that carry two entries; a last odd entry stands alone. -/
def inPairs {α : Type} : List α → List (List α)
  | a :: b :: rest => [a, b] :: inPairs rest
  | [a] => [[a]]
  | [] => []

end Sys2Proof.Machine
end

