-- ==== Sys2Proof/Config.lean ====
section
/-! DEFINITION. What the board fixes and the spec leaves to it: the level of the pins in State.reset (assumption 2).
The spec leaves no value open once these are given, so there is no free value here. -/

namespace Sys2Proof.Config

/-- The level of the five address strap pins at power-on: DESIGN CHOICE 0 (assumption 2, unsafe). -/
def addressStraps : BitVec 5 := 0

/-- The level of the twin-address strap at power-on: DESIGN CHOICE low (assumption 2, unsafe). -/
def twinStrap : Bool := false

/-- The level of the DUCK pin at power-on: DESIGN CHOICE deasserted (assumption 2, unsafe). -/
def duckPin : Bool := false

end Sys2Proof.Config
end

