-- ==== Sys2Proof/Machine/Reset.lean ====
section
/-! DEFINITION. The reset value of every record, as the chapters give them. -/

namespace Sys2Proof.Machine

/-- The reset channel record (R20). -/
def ChannelRecord.reset : ChannelRecord :=
  { out := none, zone := .a, x := 0, y := 0, trim := 0, weight := 16, taps := [] }

/-- The reset section record (R113). -/
def Section.reset : Section :=
  { valid := false, coeffs := { b0 := 0, b1 := 0, b2 := 0, a1 := 0, a2 := 0 }, live := 0 }

/-- The reset volume curve (R38): -768, then 12 k - 756. -/
def resetVolumeCurve : Vector Int 64 :=
  Vector.ofFn fun k => if k.val = 0 then -768 else 12 * (k.val : Int) - 756

/-- The reset SDV curve (R99). -/
def resetSdvCurve : List Breakpoint :=
  [{ speed := 0, boost := 0, page := none }, { speed := 400, boost := 0, page := none }]

/-- The reset zone record (R38, R47, R72, R75, R99, R103, R104, R108). -/
def ZoneRecord.reset : ZoneRecord :=
  { step := 0, curve := resetVolumeCurve, mute := true, commandDuck := false, depth := 0, mask := true, ceiling := 0,
    exponent := 10, speedPages := false, sdv := resetSdvCurve, boost := 0, band := 0, userPage := 0,
    requestedPage := 0 }

/-- The lane values after reset, targets and currents alike (R56, R70). -/
def LaneValues.reset : LaneValues :=
  { user := Vector.replicate 24 (-768), speed := Vector.replicate 24 0, mute := Vector.replicate 24 (-768),
    duck := { a := 0, b := 0 } }

/-- An empty output delay (R31). -/
def Delay.empty : Delay := { older := none, newer := none }

/-- The Ring Port after reset, with the address and twin mode given (R148, R155, R157, R160). -/
def RingPort.reset (address : Fin 31) (twin : Bool) : RingPort :=
  { lock := .unlocked, misses := 0, held := Vector.replicate 8 0, delays := Vector.replicate 24 Delay.empty,
    assembler := .idle, sender := .quiet, address := address, twin := twin }

/-- The Equaliser after reset (R113, R117, R124). -/
def Equaliser.reset : Equaliser :=
  { sections := Vector.replicate 96 Section.reset, programs := Vector.replicate 4 (Vector.replicate 24 []),
    active := Vector.replicate 24 [], target := Vector.replicate 24 none }

/-- The Page Scheduler after reset (R128, R129, R130, R143, R144). -/
def Scheduler.reset : Scheduler :=
  { switch := Vector.replicate 24 (.steady 0), slots := Vector.replicate 8 none, queue := [],
    settled := { a := true, b := true } }

/-- The Gain Planner after reset (R34, R38, R56, R72). -/
def GainPlanner.reset : GainPlanner :=
  { cabin := { balance := 0, fade := 0, balanceCurve := Vector.replicate 32 0, fadeCurve := Vector.replicate 32 0 },
    zones := { a := ZoneRecord.reset, b := ZoneRecord.reset }, mutes := Vector.replicate 24 false,
    targets := LaneValues.reset }

/-- The Ramp Engine after reset (R69, R70). -/
def RampEngine.reset : RampEngine :=
  { lanes := { user := { period := 0, first := 2, second := 0, count := 48 },
               speed := { period := 49, first := 1, second := 0, count := 2400 },
               mute := { period := 0, first := 16, second := 4, count := 48 },
               duck := { period := 0, first := 8, second := 2, count := 48 } },
    currents := LaneValues.reset }

/-- The Speed Tracker after reset (R85, R86). -/
def SpeedTracker.reset : SpeedTracker :=
  { fresh := false, accepted := 0, effective := 0, candidate := none, counter := 0, jump := 30, hysteresis := 3,
    timeout := 50, fallback := 0 }

/-- The Duck Line Input after reset (R80). -/
def DuckLine.reset : DuckLine := { count := 48, previous := false, level := false }

/-- The Output Stage after reset (R167). -/
def OutputStage.reset : OutputStage := { clips := Vector.replicate 24 0, peaks := { a := 0, b := 0 } }

/-- The set of no kinds. -/
def NoticeSet.empty : NoticeSet :=
  { relock := false, speedLost := false, ctrlLost := false, clip := false, pageSettled := false, duckLine := false }

/-- The Notice Unit after reset (R161, R165). -/
def NoticeUnit.reset : NoticeUnit := { enabled := NoticeSet.empty, pending := NoticeSet.empty, roll := .off }

/-- The own address read from the straps, 31 being taken as 30 (R153). -/
def strapAddress (straps : BitVec 5) : Fin 31 :=
  if h : straps.toNat < 31 then ⟨straps.toNat, h⟩ else 30

end Sys2Proof.Machine
end

