-- ==== Sys2Proof/Machine/State.lean ====
section
/-! DEFINITION. The state of the block, the reasons a step can stop, and the state after reset. -/

namespace Sys2Proof.Machine


/-- The reasons a step can stop with a fault. The spec names none (a refused command is answered with a result code
and changes nothing, R169), so there is none; no step faults. -/
inductive Fault where
  deriving DecidableEq, Repr

/-- The reasons a step can be refused. -/
inductive Refusal where
  /-- Raised only by an arm of exec whose row has no meaning yet; safe. No row is in that case. -/
  | notModelled (mnemonic : String)
  deriving DecidableEq, Repr

/-- The state of the block: the pins, the ten blocks, the frame that left last, and the queue of waiting commands. -/
structure State where
  pins : Pins
  port : RingPort
  sources : Vector (Option AudioSlot) 8
  channels : Vector ChannelRecord 24
  equaliser : Equaliser
  sched : Scheduler
  gain : GainPlanner
  ramp : RampEngine
  speed : SpeedTracker
  duck : DuckLine
  output : OutputStage
  notices : NoticeUnit
  ringOut : Option OutFrame
  pending : List Instr
  deriving DecidableEq, Repr

/-- Every block at its reset values, with the pins, the address, the twin mode, the frame that left last and the
queue given (R159, R160). -/
def State.blocksReset (pins : Pins) (address : Fin 31) (twin : Bool) (ringOut : Option OutFrame)
    (pending : List Instr) : State :=
  { pins := pins, port := RingPort.reset address twin, sources := Vector.replicate 8 none,
    channels := Vector.replicate 24 ChannelRecord.reset, equaliser := Equaliser.reset, sched := Scheduler.reset,
    gain := GainPlanner.reset, ramp := RampEngine.reset, speed := SpeedTracker.reset, duck := DuckLine.reset,
    output := OutputStage.reset, notices := NoticeUnit.reset, ringOut := ringOut, pending := pending }

/-- The machine right after reset: the reset pin released with the straps at the levels of Config (R160,
assumption 2), nothing on the ring yet and no command waiting. -/
def State.reset : State :=
  State.blocksReset
    { reset := false, straps := Config.addressStraps, twinStrap := Config.twinStrap, duck := Config.duckPin }
    (strapAddress Config.addressStraps) Config.twinStrap none []

end Sys2Proof.Machine
end

