-- ==== Sys2Proof/Machine/Flags.lean ====
section
/-! DEFINITION. The flags of the block: the notice kinds with their sets (R161), whether a zone's duck is active
(R76), and whether a zone is settled (R144). -/

namespace Sys2Proof.Machine

/-- The six notice kinds, in the order of their codes 1 to 6 (R161). -/
inductive NoticeKind where
  | relock
  | speedLost
  | ctrlLost
  | clip
  | pageSettled
  | duckLine
  deriving DecidableEq, Repr

/-- The kind is in the set. -/
def hasKind (n : NoticeSet) : NoticeKind → Bool
  | .relock => n.relock
  | .speedLost => n.speedLost
  | .ctrlLost => n.ctrlLost
  | .clip => n.clip
  | .pageSettled => n.pageSettled
  | .duckLine => n.duckLine

/-- The set with the kind added (R161: recording). -/
def addKind (n : NoticeSet) : NoticeKind → NoticeSet
  | .relock => { n with relock := true }
  | .speedLost => { n with speedLost := true }
  | .ctrlLost => { n with ctrlLost := true }
  | .clip => { n with clip := true }
  | .pageSettled => { n with pageSettled := true }
  | .duckLine => { n with duckLine := true }

/-- The kinds of `n` that are also in `m` (R162). -/
def keepKinds (n m : NoticeSet) : NoticeSet :=
  { relock := n.relock && m.relock, speedLost := n.speedLost && m.speedLost, ctrlLost := n.ctrlLost && m.ctrlLost,
    clip := n.clip && m.clip, pageSettled := n.pageSettled && m.pageSettled, duckLine := n.duckLine && m.duckLine }

/-- The set holds some kind. -/
def anyKind (n : NoticeSet) : Bool :=
  n.relock || n.speedLost || n.ctrlLost || n.clip || n.pageSettled || n.duckLine

/-- The highest pending code: the lowest code in the set, 0 for the empty set (R164). -/
def highestCode (n : NoticeSet) : Nat :=
  if n.relock then 1
  else if n.speedLost then 2
  else if n.ctrlLost then 3
  else if n.clip then 4
  else if n.pageSettled then 5
  else if n.duckLine then 6
  else 0

/-- A notice is handed to the Notice Unit, which records it if its kind is enabled (R161). -/
def notify (k : NoticeKind) (s : State) : State :=
  if hasKind s.notices.enabled k then
    { s with notices := { s.notices with pending := addKind s.notices.pending k } }
  else s

/-- Hands a notice on where the condition holds. -/
def notifyIf (b : Bool) (k : NoticeKind) (s : State) : State := if b then notify k s else s

/-- A zone's duck is active (R76). -/
def duckActive (z : ZoneRecord) (line : Bool) : Bool := z.commandDuck || (line && z.mask)

/-- The channel is enabled (R20). -/
def enabled (s : State) (c : Chan) : Bool := s.channels[c].out.isSome

/-- Every channel whose record names the zone is STEADY on the zone's requested page (R144). -/
def isSettled (s : State) (z : Zone) : Bool :=
  (List.finRange 24).all fun c =>
    s.channels[c].zone != z || s.sched.switch[c] == .steady (s.gain.zones.get z).requestedPage

/-- The Scheduler re-evaluates the settled flag of a zone an event touched, and hands on PAGE_SETTLED when it goes from
clear to set (R144). -/
def resettle (z : Zone) (s : State) : State :=
  let now := isSettled s z
  notifyIf (now && !s.sched.settled.get z) .pageSettled
    { s with sched := { s.sched with settled := s.sched.settled.set z now } }

/-- Re-evaluates the settled flags of the zones an event touched (R144). -/
def resettleZones (a b : Bool) (s : State) : State :=
  let s := if a then resettle .a s else s
  if b then resettle .b s else s

/-- The two zones, A first. -/
def zones : List Zone := [.a, .b]

end Sys2Proof.Machine
end

