-- ==== Sys2Proof/Machine/Ramp.lean ====
section
/-! DEFINITION. The Ramp Engine: one step of a current, the tick of a lane, the counting of a frame by a prescaler
(chapter 4), and relock (R68). -/

namespace Sys2Proof.Machine

/-- A current moved one step toward its target (R63). -/
def moveToward (up down current target : Int) : Int :=
  if current < target then min target (current + up)
  else if target < current then max target (current - down)
  else current

/-- The upward step of a lane: its step, or its release step (R63). -/
def upStep (lane : Lane) (l : LaneSettings) : Int :=
  match lane with
  | .user => (l.first : Int)
  | .speed => (l.first : Int)
  | .mute => (l.second : Int)
  | .duck => (l.second : Int)

/-- The downward step of a lane: its step, or its attack step (R63). -/
def downStep (l : LaneSettings) : Int := (l.first : Int)

/-- Every current of 24 moved one step toward its target (R63). -/
def moveAll (up down : Int) (current target : Vector Int 24) : Vector Int 24 :=
  Vector.ofFn fun c : Chan => moveToward up down current[c] target[c]

/-- Every current of one lane moved one step (R63). -/
def moveLane (lane : Lane) (s : State) : LaneValues :=
  let l := s.ramp.lanes.get lane
  let up := upStep lane l
  let down := downStep l
  let cur := s.ramp.currents
  let tgt := s.gain.targets
  match lane with
  | .user => { cur with user := moveAll up down cur.user tgt.user }
  | .speed => { cur with speed := moveAll up down cur.speed tgt.speed }
  | .mute => { cur with mute := moveAll up down cur.mute tgt.mute }
  | .duck => { cur with duck := { a := moveToward up down cur.duck.a tgt.duck.a,
                                  b := moveToward up down cur.duck.b tgt.duck.b } }

/-- Replaces the settings of a lane. -/
def setLane (lane : Lane) (l : LaneSettings) (s : State) : State :=
  { s with ramp.lanes := s.ramp.lanes.set lane l }

/-- A tick of the lane: its currents move and its count is reloaded with 48 × (P + 1) (R59, R63). -/
def tick (lane : Lane) (s : State) : State :=
  let l := s.ramp.lanes.get lane
  setLane lane { l with count := 48 * (l.period + 1) } { s with ramp.currents := moveLane lane s }

/-- A prescaler counts a frame of the sample path (R59, R60). -/
def countLane (lane : Lane) (s : State) : State :=
  let l := s.ramp.lanes.get lane
  if l.count ≤ 1 then tick lane s else setLane lane { l with count := l.count - 1 } s

/-- The Ramp Engine takes the relock (R68): mute currents to the floor, the others to their targets. -/
def rampRelock (s : State) : State :=
  { s with ramp.currents := { s.gain.targets with mute := Vector.replicate 24 (-768) } }

end Sys2Proof.Machine
end

