-- ==== Sys2Proof/Machine/Equaliser.lean ====
section
/-! DEFINITION. The Equaliser's acts: live counts and chain states at a fade's start, a completion and an instant switch
(R121, R122, R123), and the zeroing of a chain (R25, R125). -/

namespace Sys2Proof.Machine

/-- The active page of a switch state (R128). -/
def activePage : Switch → Page
  | .steady p => p
  | .queued p _ => p
  | .fading p _ => p

/-- The page program of a page and channel (R117). -/
def programOf (s : State) (p : Page) (c : Chan) : Program := s.equaliser.programs[p][c]

/-- The section library with one added to the live count of a section for each appearance in the program (R121). -/
def counted (prog : Program) (lib : Vector Section 96) : Vector Section 96 :=
  Vector.ofFn fun i : SectionId => { lib[i] with live := lib[i].live + prog.count i }

/-- The section library with one subtracted from the live count for each appearance in the program (R122). -/
def uncounted (prog : Program) (lib : Vector Section 96) : Vector Section 96 :=
  Vector.ofFn fun i : SectionId => { lib[i] with live := lib[i].live - prog.count i }

/-- Adds one to the live count of each section for each appearance in the program (R121). -/
def addLive (prog : Program) (s : State) : State :=
  { s with equaliser.sections := counted prog s.equaliser.sections }

/-- Subtracts one from the live count of each section for each appearance in the program (R122). -/
def subLive (prog : Program) (s : State) : State :=
  { s with equaliser.sections := uncounted prog s.equaliser.sections }

/-- A chain state of one zeroed position for each entry of the program (R121, R123). -/
def zeroChain (prog : Program) : Chain := List.replicate prog.length Position.zero

/-- Replaces the active chain state of a channel. -/
def setActiveChain (c : Chan) (h : Chain) (s : State) : State :=
  { s with equaliser.active := s.equaliser.active.set c h }

/-- Replaces the target chain state of a channel. -/
def setTargetChain (c : Chan) (h : Option Chain) (s : State) : State :=
  { s with equaliser.target := s.equaliser.target.set c h }

/-- The Equaliser takes the start of a channel's fade to page q (R121). -/
def eqStart (c : Chan) (q : Page) (s : State) : State :=
  setTargetChain c (some (zeroChain (programOf s q c))) (addLive (programOf s q c) s)

/-- The Equaliser takes the completion of a channel's fade from page p (R122): the target chain state becomes the
active one. -/
def eqComplete (c : Chan) (p : Page) (s : State) : State :=
  let s := subLive (programOf s p c) s
  match s.equaliser.target[c] with
  | some h => setTargetChain c none (setActiveChain c h s)
  | none => s

/-- The Equaliser takes an instant switch of a channel from page p to page q (R123). -/
def eqSwitch (c : Chan) (p q : Page) (s : State) : State :=
  setActiveChain c (zeroChain (programOf s q c)) (addLive (programOf s q c) (subLive (programOf s p c) s))

/-- Zeroes every history sample of a chain state (R25, R125). -/
def zeroHistory (h : Chain) : Chain := List.replicate h.length Position.zero

/-- Zeroes the active chain history of a channel that has been disabled (R25). -/
def zeroActive (c : Chan) (s : State) : State := setActiveChain c (zeroHistory s.equaliser.active[c]) s

/-- The active chain states, every history zeroed. -/
def zeroedActive (e : Equaliser) : Vector Chain 24 := Vector.ofFn fun c : Chan => zeroHistory e.active[c]

/-- The target chain states, every history zeroed. -/
def zeroedTarget (e : Equaliser) : Vector (Option Chain) 24 :=
  Vector.ofFn fun c : Chan => (e.target[c]).map zeroHistory

/-- Zeroes the history of every chain state of every channel (R125). -/
def zeroAllChains (s : State) : State :=
  { s with equaliser.active := zeroedActive s.equaliser, equaliser.target := zeroedTarget s.equaliser }

/-- The coefficients a channel's program for a page runs (R10). -/
def coeffsOf (s : State) (p : Page) (c : Chan) : List Coeffs :=
  (programOf s p c).map fun i => s.equaliser.sections[i].coeffs

end Sys2Proof.Machine
end

