-- ==== Sys2Proof/Machine/GainPlan.lean ====
section
/-! DEFINITION. The Gain Planner's arithmetic: the target of every lane (chapter 3), the recomputations (R52, R53), and
the SDV boost, band and requested page of a zone (chapter 7). -/

namespace Sys2Proof.Machine

/-! ### Targets -/

/-- The curve entry for a setting: entry |b|, none for 0 (R34). -/
def curveEntry (curve : Vector Nat 32) (setting : Int) : Int := ((curve.toList.getD (setting.natAbs - 1) 0 : Nat) : Int)

/-- The balance distance d, the larger of 0 and -sign(b) × x (R43). -/
def balanceDistance (b x : Int) : Int := max 0 (-(b.sign * x))

/-- Bal, the balance attenuation of a channel at x (R43). -/
def balanceAtt (cab : Cabin) (x : Int) : Int :=
  if cab.balance = 0 ∨ balanceDistance cab.balance x = 0 then 0
  else (curveEntry cab.balanceCurve cab.balance * balanceDistance cab.balance x + 4) / 8

/-- The fade distance d (R44). -/
def fadeDistance (f : Int) (y : Nat) : Int := if 0 < f then 15 - (y : Int) else if f < 0 then (y : Int) else 0

/-- Fad, the fade attenuation of a channel at y (R44). -/
def fadeAtt (cab : Cabin) (y : Nat) : Int :=
  if cab.fade = 0 then 0 else (curveEntry cab.fadeCurve cab.fade * fadeDistance cab.fade y + 7) / 15

/-- A full cut of balance or of fade applies to the channel (R46). -/
def fullCut (cab : Cabin) (r : ChannelRecord) : Bool :=
  (decide (cab.balance ≠ 0) && decide (curveEntry cab.balanceCurve cab.balance = 768)
    && decide (balanceDistance cab.balance r.x = 8))
  || (decide (cab.fade ≠ 0) && decide (curveEntry cab.fadeCurve cab.fade = 768)
    && decide (fadeDistance cab.fade r.y = 15))

/-- V, a zone's volume: the entry of its curve at its step (R38). -/
def zoneVolume (z : ZoneRecord) : Int := z.curve[z.step]

/-- The user lane target (R45, R46). -/
def userTarget (cab : Cabin) (z : ZoneRecord) (r : ChannelRecord) : Int :=
  if fullCut cab r then -768
  else clamp (-768) 96 (zoneVolume z - balanceAtt cab r.x - fadeAtt cab r.y + r.trim)

/-- sdv_w, the weighted boost (R48). -/
def weightedBoost (z : ZoneRecord) (r : ChannelRecord) : Int := (z.boost * (r.weight : Int) + 8) / 16

/-- The speed lane target (R48). -/
def speedTarget (z : ZoneRecord) (r : ChannelRecord) : Int :=
  let w := weightedBoost z r
  clamp (-96) 96 (if 0 < w then min w (max 0 (z.ceiling - zoneVolume z)) else w)

/-- The mute lane target from the channel's flag and its zone's (R49). -/
def muteTarget (flag : Bool) (z : ZoneRecord) : Int := if flag || z.mute then -768 else 0

/-- The duck lane target of a zone, the DUCK line at `line` (R50, R76). -/
def duckTarget (z : ZoneRecord) (line : Bool) : Int := if duckActive z line then -(z.depth : Int) else 0

/-! ### Recomputation -/

/-- The user targets, those of the channels `p` picks formed anew (R52). -/
def userTargets (p : Chan → Bool) (s : State) : Vector Int 24 :=
  Vector.ofFn fun c : Chan =>
    if p c then userTarget s.gain.cabin (s.gain.zones.get s.channels[c].zone) s.channels[c]
    else s.gain.targets.user[c]

/-- Recomputes the user targets of the channels `p` picks (R52). -/
def recomputeUser (p : Chan → Bool) (s : State) : State := { s with gain.targets.user := userTargets p s }

/-- The speed targets, those of the channels `p` picks formed anew (R52). -/
def speedTargets (p : Chan → Bool) (s : State) : Vector Int 24 :=
  Vector.ofFn fun c : Chan =>
    if p c then speedTarget (s.gain.zones.get s.channels[c].zone) s.channels[c]
    else s.gain.targets.speed[c]

/-- Recomputes the speed targets of the channels `p` picks (R52). -/
def recomputeSpeed (p : Chan → Bool) (s : State) : State := { s with gain.targets.speed := speedTargets p s }

/-- The mute targets, those of the channels `p` picks formed anew (R52). -/
def muteTargets (p : Chan → Bool) (s : State) : Vector Int 24 :=
  Vector.ofFn fun c : Chan =>
    if p c then muteTarget s.gain.mutes[c] (s.gain.zones.get s.channels[c].zone)
    else s.gain.targets.mute[c]

/-- Recomputes the mute targets of the channels `p` picks (R52). -/
def recomputeMute (p : Chan → Bool) (s : State) : State := { s with gain.targets.mute := muteTargets p s }

/-- Recomputes the duck target of a zone (R52). -/
def recomputeDuck (z : Zone) (s : State) : State :=
  { s with gain.targets.duck := s.gain.targets.duck.set z (duckTarget (s.gain.zones.get z) s.duck.level) }

/-- Every channel. -/
def allChannels : Chan → Bool := fun _ => true

/-- The channels whose record names the zone. -/
def inZone (s : State) (z : Zone) : Chan → Bool := fun c => s.channels[c].zone == z

/-- Replaces the record of one zone. -/
def setZone (z : Zone) (r : ZoneRecord) (s : State) : State := { s with gain.zones := s.gain.zones.set z r }

/-! ### SDV -/

/-- The speed band at speed v: the last breakpoint whose speed is at most v, else breakpoint 0 (R103). -/
def sdvBand (curve : List Breakpoint) (v : Nat) : Nat := (curve.takeWhile fun p => p.speed ≤ v).length - 1

/-- The boost at speed v (R102). -/
def sdvBoost (curve : List Breakpoint) (v : Nat) : Int :=
  match curve.drop (sdvBand curve v) with
  | [] => 0
  | [p] => p.boost
  | p :: q :: _ =>
    if v < p.speed then p.boost
    else p.boost + (q.boost - p.boost) * ((v : Int) - (p.speed : Int)) / ((q.speed : Int) - (p.speed : Int))

/-- The requested page a zone's option, band and user page give (R105). -/
def evalRequested (z : ZoneRecord) : Page :=
  if z.speedPages then
    match (z.sdv[z.band]?).bind Breakpoint.page with
    | some p => p
    | none => z.userPage
  else z.userPage

/-- Re-evaluates a zone's boost and band at a speed (R47, R103). -/
def evalSdv (v : Nat) (z : ZoneRecord) : ZoneRecord := { z with boost := sdvBoost z.sdv v, band := sdvBand z.sdv v }

end Sys2Proof.Machine
end

