-- ==== Sys2Proof/Machine/Scheduler.lean ====
section
/-! DEFINITION. The Page Scheduler's acts (chapter 9): page requests, starts, completions, grants, instant switches,
disabling and lock loss; and the hand-over of page requests by the Gain Planner (R106). -/

namespace Sys2Proof.Machine

/-- Replaces the switch state of a channel. -/
def setSwitch (c : Chan) (w : Switch) (s : State) : State := { s with sched.switch := s.sched.switch.set c w }

/-- Replaces the content of a crossfade slot. -/
def setSlot (i : FadeSlot) (f : Option Fade) (s : State) : State := { s with sched.slots := s.sched.slots.set i f }

/-- Replaces the pending queue. -/
def setQueue (q : List Chan) (s : State) : State := { s with sched.queue := q }

/-- Takes a channel out of the queue; the other entries keep their order (R130). -/
def leaveQueue (c : Chan) (s : State) : State := setQueue (s.sched.queue.erase c) s

/-- The channel joins the queue at the tail (R130). -/
def joinQueue (c : Chan) (s : State) : State := setQueue (s.sched.queue ++ [c]) s

/-- The lowest-numbered free slot (R132). -/
def freeSlot (s : State) : Option FadeSlot := (List.finRange 8).find? fun i => s.sched.slots[i].isNone

/-- The crossfade length a start of the channel's fade reads now: L = 2^n of its zone (R134, R108). -/
def fadeLength (s : State) (c : Chan) : Nat := 2 ^ (s.gain.zones.get s.channels[c].zone).exponent

/-- A fade of channel c from p to q starts in slot i (R134). -/
def startFade (c : Chan) (p q : Page) (i : FadeSlot) (s : State) : State :=
  eqStart c q (setSwitch c (.fading p i)
    (setSlot i (some { channel := c, old := p, target := q, k := 0, length := fadeLength s c, next := none }) s))

/-- An instant switch of channel c from p to q (R123, R133). -/
def instantSwitch (c : Chan) (p q : Page) (s : State) : State := eqSwitch c p q (setSwitch c (.steady q) s)

/-- A page request for page r to an enabled channel (R132). -/
def requestEnabled (c : Chan) (r : Page) (s : State) : State :=
  match s.sched.switch[c] with
  | .steady p =>
    if r = p then s
    else
      match freeSlot s with
      | some i => startFade c p r i s
      | none => joinQueue c (setSwitch c (.queued p r) s)
  | .queued p _ => if r = p then leaveQueue c (setSwitch c (.steady p) s) else setSwitch c (.queued p r) s
  | .fading _ i =>
    match s.sched.slots[i] with
    | some f => setSlot i (some { f with next := if r = f.target then none else some r }) s
    | none => s

/-- A page request for page r to a disabled channel, which is STEADY (R133). -/
def requestDisabled (c : Chan) (r : Page) (s : State) : State :=
  match s.sched.switch[c] with
  | .steady p => if r = p then s else instantSwitch c p r s
  | .queued _ _ => s
  | .fading _ _ => s

/-- A page request for page r to a channel (R132, R133). -/
def pageRequest (c : Chan) (r : Page) (s : State) : State :=
  if enabled s c then requestEnabled c r s else requestDisabled c r s

/-- The head of the queue leaves it and is granted slot i, where the queue is not empty (R136 step 3). -/
def grantHead (i : FadeSlot) (s : State) : State :=
  match s.sched.queue with
  | [] => s
  | d :: rest =>
    match s.sched.switch[d] with
    | .queued p q => startFade d p q i (setQueue rest s)
    | .steady _ => setQueue rest s
    | .fading _ _ => setQueue rest s

/-- The fade f in slot i completes: the Equaliser is told, the channel is on the target page, the slot is free
(R136 step 1 and the freeing of step 2). -/
def carryOver (f : Fade) (i : FadeSlot) (s : State) : State :=
  setSlot i none (setSwitch f.channel (.steady f.target) (eqComplete f.channel f.old s))

/-- A channel whose completed fade held a next target joins the queue at the tail (R136 step 2). -/
def requeue (f : Fade) (s : State) : State :=
  match f.next with
  | none => s
  | some r => joinQueue f.channel (setSwitch f.channel (.queued f.target r) s)

/-- The fade in slot i completes, with the re-queue and the grant, as one act (R136). -/
def completeFade (i : FadeSlot) (s : State) : State :=
  match s.sched.slots[i] with
  | some f => grantHead i (requeue f (carryOver f i s))
  | none => s

/-- The fade f in slot i ends at once, its next target applied by an instant switch (R139, R142). -/
def endFade (f : Fade) (i : FadeSlot) (s : State) : State :=
  let s := carryOver f i s
  match f.next with
  | none => s
  | some r => instantSwitch f.channel f.target r s

/-- The Scheduler takes the disable of a channel (R139). -/
def schedDisable (c : Chan) (s : State) : State :=
  match s.sched.switch[c] with
  | .steady _ => s
  | .queued p q => instantSwitch c p q (leaveQueue c s)
  | .fading _ i =>
    match s.sched.slots[i] with
    | some f => grantHead i (endFade f i s)
    | none => s

/-- The Scheduler brings one channel to a steady state at lock loss (R142). -/
def schedLoseChannel (s : State) (c : Chan) : State :=
  match s.sched.switch[c] with
  | .steady _ => s
  | .queued p q => instantSwitch c p q (leaveQueue c s)
  | .fading _ i =>
    match s.sched.slots[i] with
    | some f => endFade f i s
    | none => s

/-- The Scheduler takes the lock loss: every channel steady, every slot free, the queue empty (R142). -/
def schedLockLoss (s : State) : State :=
  let s := (List.finRange 24).foldl schedLoseChannel s
  resettleZones true true { s with sched.slots := Vector.replicate 8 none, sched.queue := [] }

/-! ### Requests handed by the Gain Planner -/

/-- One request of a set: the channel is asked for its zone's requested page where that zone's page changed (R106). -/
def requestIfIn (a b : Bool) (s : State) (c : Chan) : State :=
  match s.channels[c].zone with
  | .a => if a then pageRequest c s.gain.zones.a.requestedPage s else s
  | .b => if b then pageRequest c s.gain.zones.b.requestedPage s else s

/-- The set of requests for the zones whose requested page changed, in ascending channel number (R106, R131), and the
settled flags of those zones (R144). -/
def handRequests (a b : Bool) (s : State) : State :=
  resettleZones a b ((List.finRange 24).foldl (requestIfIn a b) s)

/-- Re-evaluates a zone's requested page (R105). -/
def reviewZone (z : ZoneRecord) : ZoneRecord := { z with requestedPage := evalRequested z }

/-- The zone records, the requested page of the zones picked evaluated anew (R105). -/
def reviewedZones (a b : Bool) (zs : PerZone ZoneRecord) : PerZone ZoneRecord :=
  { a := if a then reviewZone zs.a else zs.a, b := if b then reviewZone zs.b else zs.b }

/-- Re-evaluates the requested page of the zones picked, and hands the requests on where a page changed (R105, R106). -/
def reviewPages (a b : Bool) (s : State) : State :=
  let zs := reviewedZones a b s.gain.zones
  let ca := zs.a.requestedPage != s.gain.zones.a.requestedPage
  let cb := zs.b.requestedPage != s.gain.zones.b.requestedPage
  let s := { s with gain.zones := zs }
  if ca || cb then handRequests ca cb s else s

/-- Re-evaluates the requested page of one zone (R107, R109, R101). -/
def reviewPage (z : Zone) (s : State) : State := reviewPages (z == .a) (z == .b) s

end Sys2Proof.Machine
end

