-- ==== Sys2Proof/Machine/Speed.lean ====
section
/-! DEFINITION. The Speed Tracker's acts (chapter 6) and what the Gain Planner does with a change of effective speed
(R92, R110). -/

namespace Sys2Proof.Machine

/-- Replaces the Speed Tracker's record and policy. -/
def setSpeed (t : SpeedTracker) (s : State) : State := { s with speed := t }

/-- The Gain Planner takes a new effective speed (R110): the boost and band of both zones, the speed targets of all
channels, and the requested pages of both zones with one set of requests. -/
def takeEffective (s : State) : State :=
  let v := s.speed.effective
  let s := { s with gain.zones := { a := evalSdv v s.gain.zones.a, b := evalSdv v s.gain.zones.b } }
  reviewPages true true (recomputeSpeed allChannels s)

/-- Hands the effective speed on where it differs from `before` (R92). -/
def handEffective (before : Nat) (s : State) : State := if s.speed.effective ≠ before then takeEffective s else s

/-- Replaces the tracker's record as one event, and hands a changed effective speed on (R92). -/
def speedEvent (t : SpeedTracker) (s : State) : State := handEffective s.speed.effective (setSpeed t s)

/-- The record after a reading m is accepted (R91). -/
def accept (m : Nat) (t : SpeedTracker) : SpeedTracker :=
  { t with accepted := m, fresh := true, candidate := none, counter := t.timeout * 480,
           effective := max m (min t.effective (m + t.hysteresis)) }

/-- The difference of two speeds. -/
def speedGap (a b : Nat) : Nat := (a - b) + (b - a)

/-- The record after a valid reading m is judged (R88, R89, R90). -/
def judge (m : Nat) (t : SpeedTracker) : SpeedTracker :=
  if !t.fresh then accept m t
  else
    match t.candidate with
    | none => if t.jump = 0 ∨ speedGap m t.accepted ≤ t.jump then accept m t else { t with candidate := some m }
    | some k =>
      if t.jump = 0 ∨ speedGap m k ≤ t.jump ∨ speedGap m t.accepted ≤ t.jump then accept m t
      else { t with candidate := some m }

/-- The record after the staleness counter has run out (R94). -/
def expire (t : SpeedTracker) : SpeedTracker :=
  { t with fresh := false, candidate := none, accepted := t.fallback, effective := t.fallback, counter := 0 }

/-- The expiry, with its SPEED_LOST notice (R94). -/
def expiry (s : State) : State := notify .speedLost (speedEvent (expire s.speed) s)

/-- The staleness counter counts a frame of the sample path, and expires when it reaches 0 (R93, R94). -/
def countStaleness (s : State) : State :=
  if s.speed.fresh ∧ 0 < s.speed.counter then
    if s.speed.counter = 1 then expiry s else setSpeed { s.speed with counter := s.speed.counter - 1 } s
  else s

/-- The record after a policy is stored (R95). -/
def applyPolicy (jump hysteresis timeout fallback : Nat) (t : SpeedTracker) : SpeedTracker :=
  let t := { t with jump := jump, hysteresis := hysteresis, timeout := timeout, fallback := fallback }
  if t.fresh then { t with effective := min t.effective (t.accepted + hysteresis), counter := timeout * 480 }
  else { t with accepted := fallback, effective := fallback }

end Sys2Proof.Machine
end

