-- ==== Sys2Proof/Machine/Tables.lean ====
section
/-! DEFINITION. The data words of answers: READ_TABLE's selectors and parts (R172), STATUS_POLL and READ_METERS (R173). -/

namespace Sys2Proof.Machine

/-- A presence flag and, of `width` bits, the value or 0 (R170). -/
def optFields (width : Nat) (v : Option Nat) : List Field := [flag v.isSome, nat width (v.getD 0)]

/-- A zone as a bit: 0 for A, 1 for B (12.4). -/
def zoneBit : Zone → Nat
  | .a => 0
  | .b => 1

/-- Selector 1: the source records (R33). -/
def sourceTable (s : State) : List Word32 :=
  s.sources.toList.map fun r => packWord (optFields 5 (r.map Fin.val))

/-- A tap word of the channel table; an unused tap is 0 (R170). -/
def tapWord : Option Tap → Word32
  | some t => packWord [nat 3 t.source.val, int 11 t.gain, flag t.duck]
  | none => 0

/-- The six words of a channel record (R33). -/
def channelWords (r : ChannelRecord) : List Word32 :=
  [packWord (optFields 5 (r.out.map Fin.val) ++ [nat 1 (zoneBit r.zone), nat 3 r.taps.length, int 5 r.x, nat 4 r.y]),
   packWord [int 8 r.trim, nat 5 r.weight],
   tapWord r.taps[0]?, tapWord r.taps[1]?, tapWord r.taps[2]?, tapWord r.taps[3]?]

/-- Selector 2: the channel records (R33). -/
def channelTable (s : State) : List Word32 := s.channels.toList.flatMap channelWords

/-- The six words of a section record (R127). -/
def sectionWords (r : Section) : List Word32 :=
  [packWord [flag r.valid, nat 8 r.live], packWord [nat 24 r.coeffs.b0.toNat], packWord [nat 24 r.coeffs.b1.toNat],
   packWord [nat 24 r.coeffs.b2.toNat], packWord [nat 24 r.coeffs.a1.toNat], packWord [nat 24 r.coeffs.a2.toNat]]

/-- Selector 3: sections 32 × part to 32 × part + 31 (R127). -/
def sectionTable (part : Nat) (s : State) : List Word32 :=
  ((s.equaliser.sections.toList.drop (32 * part)).take 32).flatMap sectionWords

/-- An entry of a program; an unused entry is 0 (R170). -/
def entryField (p : Program) (i : Nat) : Field := nat 7 ((p[i]?).elim 0 Fin.val)

/-- The two words of a program (R127). -/
def programWords (p : Program) : List Word32 :=
  [packWord [nat 3 p.length, entryField p 0, entryField p 1, entryField p 2],
   packWord [entryField p 3, entryField p 4, entryField p 5]]

/-- Selector 4: the programs, page 0 first (R127). -/
def programTable (s : State) : List Word32 :=
  s.equaliser.programs.toList.flatMap fun ps => ps.toList.flatMap programWords

/-- Words of two entries each, the earlier entry higher. -/
def pairWords (fs : List Field) : List Word32 := (inPairs fs).map packWord

/-- Selector 5: the cabin record (R57). -/
def cabinTable (s : State) : List Word32 :=
  let cab := s.gain.cabin
  packWord [int 7 cab.balance, int 7 cab.fade] ::
    (pairWords (cab.balanceCurve.toList.map (nat 10)) ++ pairWords (cab.fadeCurve.toList.map (nat 10)))

/-- A breakpoint word of the zone table; an unused one is 0 (R112, R170). -/
def breakpointWord : Option Breakpoint → Word32
  | some p => packWord ([nat 9 p.speed, int 8 p.boost] ++ optFields 2 (p.page.map Fin.val))
  | none => 0

/-- The 51 words of a zone record (R57, R83, R112). -/
def zoneWords (z : ZoneRecord) : List Word32 :=
  [packWord [nat 6 z.step.val, flag z.mute, flag z.commandDuck, flag z.mask, flag z.speedPages, nat 4 z.exponent,
     nat 2 z.userPage.val, nat 2 z.requestedPage.val],
   packWord [nat 10 z.depth, int 11 z.ceiling]] ++
  pairWords (z.curve.toList.map (int 11)) ++
  [packWord [nat 5 z.sdv.length]] ++
  (List.range 16).map fun i => breakpointWord z.sdv[i]?

/-- Selector 6: the zones, the channel mute flags and the DUCK line (R57, R83, R112). -/
def zoneTable (s : State) : List Word32 :=
  zoneWords s.gain.zones.a ++ zoneWords s.gain.zones.b ++
    [packWord (s.gain.mutes.toList.map flag ++ [flag s.duck.level])]

/-- Selector 7: the speed record and policy (R98). -/
def speedTable (s : State) : List Word32 :=
  let t := s.speed
  [packWord [flag t.fresh, flag t.candidate.isSome, nat 9 t.accepted, nat 9 t.effective, nat 9 (t.candidate.getD 0)],
   packWord [nat 17 t.counter],
   packWord [nat 8 t.jump, nat 5 t.hysteresis, nat 8 t.timeout, nat 9 t.fallback]]

/-- The switch-state word of a channel (R145). -/
def switchWord (s : State) : Switch → Word32
  | .steady p => packWord [nat 2 0, nat 2 p.val, nat 2 0, nat 3 0, flag false, nat 2 0]
  | .queued p q => packWord [nat 2 1, nat 2 p.val, nat 2 q.val, nat 3 0, flag false, nat 2 0]
  | .fading p i =>
    let f := s.sched.slots[i]
    packWord ([nat 2 2, nat 2 p.val, nat 2 (f.elim 0 fun f => f.target.val), nat 3 i.val] ++
      optFields 2 ((f.bind Fade.next).map Fin.val))

/-- Selector 8: the switch states and the settled flags (R145). -/
def switchTable (s : State) : List Word32 :=
  s.sched.switch.toList.map (switchWord s) ++ [packWord [flag s.sched.settled.a, flag s.sched.settled.b]]

/-- The two words of a crossfade slot; a free slot's are 0 (R145, R170). -/
def slotWords : Option Fade → List Word32
  | some f =>
    [packWord ([flag true, nat 5 f.channel.val, nat 2 f.old.val, nat 2 f.target.val] ++
       optFields 2 (f.next.map Fin.val)),
     packWord [nat 13 f.k, nat 14 f.length]]
  | none => [0, 0]

/-- Selector 9: the slots (R145). -/
def slotTable (s : State) : List Word32 := s.sched.slots.toList.flatMap slotWords

/-- The pending page of a queued channel. -/
def pendingPage (s : State) (c : Chan) : Nat :=
  match s.sched.switch[c] with
  | .queued _ q => q.val
  | .steady _ => 0
  | .fading _ _ => 0

/-- Selector 10: the queue, head first (R145). -/
def queueTable (s : State) : List Word32 :=
  packWord [nat 5 s.sched.queue.length] ::
    s.sched.queue.map fun c => packWord [nat 5 c.val, nat 2 (pendingPage s c)]

/-- The three words of a channel's lanes (R57). -/
def laneWords (s : State) (c : Chan) : List Word32 :=
  let t := s.gain.targets
  let u := s.ramp.currents
  [packWord [int 11 t.user[c], int 11 u.user[c]], packWord [int 8 t.speed[c], int 8 u.speed[c]],
   packWord [int 11 t.mute[c], int 11 u.mute[c]]]

/-- The settings word of a lane (R71). -/
def settingsWord (l : LaneSettings) : Word32 := packWord [nat 8 l.period, nat 7 l.first, nat 7 l.second]

/-- Selector 11: the lanes (R57, R71). -/
def laneTable (s : State) : List Word32 :=
  (List.finRange 24).flatMap (laneWords s) ++
    [packWord [int 11 s.gain.targets.duck.a, int 11 s.ramp.currents.duck.a],
     packWord [int 11 s.gain.targets.duck.b, int 11 s.ramp.currents.duck.b]] ++
    [settingsWord s.ramp.lanes.user, settingsWord s.ramp.lanes.speed, settingsWord s.ramp.lanes.mute,
     settingsWord s.ramp.lanes.duck]

/-- The data words of a selector and part, or none where READ_TABLE refuses them (R172). -/
def tableWords (selector part : Nat) (s : State) : Option (List Word32) :=
  match selector, part with
  | 1, 0 => some (sourceTable s)
  | 2, 0 => some (channelTable s)
  | 3, 0 => some (sectionTable 0 s)
  | 3, 1 => some (sectionTable 1 s)
  | 3, 2 => some (sectionTable 2 s)
  | 4, 0 => some (programTable s)
  | 5, 0 => some (cabinTable s)
  | 6, 0 => some (zoneTable s)
  | 7, 0 => some (speedTable s)
  | 8, 0 => some (switchTable s)
  | 9, 0 => some (slotTable s)
  | 10, 0 => some (queueTable s)
  | 11, 0 => some (laneTable s)
  | _, _ => none

/-- The number of FADING channels (R145). -/
def fadingCount (s : State) : Nat :=
  s.sched.switch.toList.countP fun w =>
    match w with
    | .fading _ _ => true
    | .steady _ => false
    | .queued _ _ => false

/-- The data words of STATUS_POLL (R164, R173). -/
def statusWords (s : State) : List Word32 :=
  let p := s.notices.pending
  [packWord [nat 3 (highestCode p), flag p.relock, flag p.speedLost, flag p.ctrlLost, flag p.clip, flag p.pageSettled,
     flag p.duckLine, flag true, flag s.speed.fresh, flag (duckActive s.gain.zones.a s.duck.level),
     flag (duckActive s.gain.zones.b s.duck.level), flag s.sched.settled.a, flag s.sched.settled.b,
     nat 4 (fadingCount s), nat 5 s.sched.queue.length],
   packWord [nat 9 s.speed.accepted, nat 9 s.speed.effective]]

/-- The data words of READ_METERS (R168, R173). -/
def meterWords (s : State) : List Word32 :=
  [packWord [nat 24 s.output.peaks.a], packWord [nat 24 s.output.peaks.b]] ++
    pairWords (s.output.clips.toList.map (nat 16))

end Sys2Proof.Machine
end

