-- ==== Sys2Proof/Machine/Commands.lean ====
section
/-! DEFINITION. What the owner of each ring command does when it takes it: one `take…` for each command of the command
index (12.3), in its order. A refused command changes nothing (00_scope, conventions). -/

namespace Sys2Proof.Machine

/-- What taking a command gives: the state, the result code, the data words of the answer, and what takes effect when
the answer has gone. -/
structure Taken where
  state : State
  code : ResultCode
  data : List Word32
  after : Deferred

/-- A command taken, with no data words. -/
def done (code : ResultCode) (s : State) : Taken := { state := s, code := code, data := [], after := .nothing }

/-- A command taken that returns data words. -/
def answerData (data : List Word32) (s : State) : Taken := { state := s, code := .ok, data := data, after := .nothing }

/-! ### Space 1, Port -/

/-- ASSIGN_ADDRESS (R154): 31 is stored as 30 and answered CLAMPED; the effect is deferred. -/
def takeAssignAddress (address : BitVec 5) (twin : BitVec 8) (s : State) : Taken :=
  { state := s, code := clampedIf (address == 31), data := [],
    after := .newAddress (strapAddress address) (twin != 0) }

/-- DEVICE_RESET (R159): answered OK; the effect is deferred. -/
def takeDeviceReset (s : State) : Taken := { state := s, code := .ok, data := [], after := .deviceReset }

/-- READ_TABLE (R172). -/
def takeReadTable (selector part : BitVec 8) (s : State) : Taken :=
  match tableWords selector.toNat part.toNat s with
  | some ws => answerData ws s
  | none => done .badIndex s

/-! ### Space 2, Cabin gain -/

/-- SET_BALANCE (R35). -/
def takeSetBalance (setting : BitVec 8) (s : State) : Taken :=
  let v := clamp (-32) 32 setting.toInt
  done (clampedIf (v != setting.toInt)) (recomputeUser allChannels { s with gain.cabin.balance := v })

/-- SET_FADE (R36). -/
def takeSetFade (setting : BitVec 8) (s : State) : Taken :=
  let v := clamp (-32) 32 setting.toInt
  done (clampedIf (v != setting.toInt)) (recomputeUser allChannels { s with gain.cabin.fade := v })

/-- The entries of a balance or fade curve, each clamped to 0 to 768 (R37). -/
def attenuationCurve (entries : Vector (BitVec 12) 32) : Vector Nat 32 :=
  Vector.ofFn fun i : Fin 32 => (clamp 0 768 entries[i].toInt).toNat

/-- Some entry lies outside `lo` to `hi`. -/
def anyOutside {n : Nat} (lo hi : Int) (entries : Vector (BitVec 12) n) : Bool :=
  entries.toList.any fun e => clamp lo hi e.toInt != e.toInt

/-- LOAD_BALANCE_CURVE (R37). -/
def takeLoadBalanceCurve (entries : Vector (BitVec 12) 32) (s : State) : Taken :=
  done (clampedIf (anyOutside 0 768 entries))
    (recomputeUser allChannels { s with gain.cabin.balanceCurve := attenuationCurve entries })

/-- LOAD_FADE_CURVE (R37). -/
def takeLoadFadeCurve (entries : Vector (BitVec 12) 32) (s : State) : Taken :=
  done (clampedIf (anyOutside 0 768 entries))
    (recomputeUser allChannels { s with gain.cabin.fadeCurve := attenuationCurve entries })

/-- The channel a payload index names, where it lies from 0 to 23. -/
def toChannel (i : BitVec 8) : Option Chan := if h : i.toNat < 24 then some ⟨i.toNat, h⟩ else none

/-- Picks one channel. -/
def only (c : Chan) : Chan → Bool := fun d => d == c

/-- Replaces a channel record. -/
def setRecord (c : Chan) (r : ChannelRecord) (s : State) : State := { s with channels := s.channels.set c r }

/-- SET_CHANNEL_TRIM (R42). -/
def takeSetChannelTrim (channel : BitVec 8) (trim : BitVec 10) (s : State) : Taken :=
  match toChannel channel with
  | none => done .badIndex s
  | some c =>
    let v := clamp (-96) 96 trim.toInt
    done (clampedIf (v != trim.toInt)) (recomputeUser (only c) (setRecord c { s.channels[c] with trim := v } s))

/-- SET_CHANNEL_MUTE (R73). -/
def takeSetChannelMute (channel mute : BitVec 8) (s : State) : Taken :=
  match toChannel channel with
  | none => done .badIndex s
  | some c => done .ok (recomputeMute (only c) { s with gain.mutes := s.gain.mutes.set c (mute != 0) })

/-! ### Space 3, Zone gain -/

/-- Stores a zone's volume step, and recomputes the user and speed targets of the zone's channels (R39). -/
def storeStep (z : Zone) (step : Fin 64) (s : State) : State :=
  let s := setZone z { s.gain.zones.get z with step := step } s
  recomputeSpeed (inZone s z) (recomputeUser (inZone s z) s)

/-- SET_VOLUME (R39): a step above 63 stores 63. -/
def takeSetVolume (z : Zone) (step : BitVec 8) (s : State) : Taken :=
  if h : step.toNat < 64 then done .ok (storeStep z ⟨step.toNat, h⟩ s) else done .clamped (storeStep z 63 s)

/-- The volume step `v` brings, clamped to 0 to 63 (R40). -/
def clampStep (v : Int) : Fin 64 := ⟨(clamp 0 63 v).toNat, by unfold clamp; omega⟩

/-- STEP_VOLUME (R40). -/
def takeStepVolume (z : Zone) (delta : BitVec 8) (s : State) : Taken :=
  let d := clamp (-63) 63 delta.toInt
  let sum := (((s.gain.zones.get z).step.val : Nat) : Int) + d
  done (clampedIf (d != delta.toInt || clamp 0 63 sum != sum)) (storeStep z (clampStep sum) s)

/-- The entries of a volume curve, each clamped to -768 to 96 (R41). -/
def gainCurve (entries : Vector (BitVec 12) 64) : Vector Int 64 :=
  Vector.ofFn fun i : Fin 64 => clamp (-768) 96 entries[i].toInt

/-- LOAD_VOLUME_CURVE (R41). -/
def takeLoadVolumeCurve (z : Zone) (entries : Vector (BitVec 12) 64) (s : State) : Taken :=
  let s := setZone z { s.gain.zones.get z with curve := gainCurve entries } s
  done (clampedIf (anyOutside (-768) 96 entries)) (recomputeSpeed (inZone s z) (recomputeUser (inZone s z) s))

/-- SET_ZONE_MUTE (R74). -/
def takeSetZoneMute (z : Zone) (value : BitVec 8) (s : State) : Taken :=
  let s := setZone z { s.gain.zones.get z with mute := value != 0 } s
  done .ok (recomputeMute (inZone s z) s)

/-- SET_DUCK (R77). -/
def takeSetDuck (z : Zone) (value : BitVec 8) (s : State) : Taken :=
  done .ok (recomputeDuck z (setZone z { s.gain.zones.get z with commandDuck := value != 0 } s))

/-- The zone record with these options stored, each clamped (R78, R109). -/
def storeOptions (o : ZoneOptionsWord) (r : ZoneRecord) : ZoneRecord :=
  { r with depth := min 768 o.depth.toNat, ceiling := clamp (-768) 96 o.ceiling.toInt,
           exponent := clampNat 8 13 o.exponent.toNat, mask := o.mask != 0, speedPages := o.speedPages != 0 }

/-- Some field of the options is clamped (R78, R109). -/
def optionsClamped (o : ZoneOptionsWord) : Bool :=
  decide (768 < o.depth.toNat) || clamp (-768) 96 o.ceiling.toInt != o.ceiling.toInt
    || clampNat 8 13 o.exponent.toNat != o.exponent.toNat

/-- SET_ZONE_OPTIONS (R78, R109). -/
def takeSetZoneOptions (z : Zone) (o : ZoneOptionsWord) (s : State) : Taken :=
  let s := setZone z (storeOptions o (s.gain.zones.get z)) s
  done (clampedIf (optionsClamped o)) (reviewPage z (recomputeDuck z (recomputeSpeed (inZone s z) s)))

/-! ### Space 4, Ramp -/

/-- The lane a payload numbers (R65). -/
def toLane (i : BitVec 4) : Option Lane :=
  match i.toNat with
  | 0 => some .user
  | 1 => some .speed
  | 2 => some .mute
  | 3 => some .duck
  | _ => none

/-- The lane has an attack and a release step (R62). -/
def hasRelease : Lane → Bool
  | .user => false
  | .speed => false
  | .mute => true
  | .duck => true

/-- SET_RAMP (R65). -/
def takeSetRamp (lane : BitVec 4) (period : BitVec 10) (first second : BitVec 8) (s : State) : Taken :=
  match toLane lane with
  | none => done .badIndex s
  | some l =>
    let p := min 255 period.toNat
    let a := clampNat 1 96 first.toNat
    let r := clampNat 1 96 second.toNat
    let old := s.ramp.lanes.get l
    done (clampedIf (p != period.toNat || a != first.toNat || (hasRelease l && r != second.toNat)))
      (setLane l { old with period := p, first := a, second := if hasRelease l then r else old.second } s)

/-! ### Space 5, Speed -/

/-- VEHICLE_STATE (R87). -/
def takeVehicleState (speed : BitVec 10) (valid : Bool) (s : State) : Taken :=
  if valid then done (clampedIf (decide (400 < speed.toNat))) (speedEvent (judge (min 400 speed.toNat) s.speed) s)
  else done .ok s

/-- SET_SPEED_POLICY (R95). -/
def takeSetSpeedPolicy (p : PolicyWord) (s : State) : Taken :=
  done (clampedIf (decide (255 < p.jump.toNat) || decide (31 < p.hysteresis.toNat) || decide (255 < p.timeout.toNat)
      || decide (400 < p.fallback.toNat)))
    (speedEvent (applyPolicy (min 255 p.jump.toNat) (min 31 p.hysteresis.toNat) (min 255 p.timeout.toNat)
      (min 400 p.fallback.toNat) s.speed) s)

/-- A breakpoint of a load, clamped (R100 step 2). -/
def toBreakpoint (w : BreakpointWord) : Breakpoint :=
  { speed := min 400 w.speed.toNat, boost := clamp (-96) 96 w.boost.toInt,
    page := if w.pagePresent then some w.page.toFin else none }

/-- A breakpoint of a load has a field out of range (R100 step 2). -/
def breakpointClamped (w : BreakpointWord) : Bool :=
  decide (400 < w.speed.toNat) || clamp (-96) 96 w.boost.toInt != w.boost.toInt

/-- The speeds rise strictly along the list (R99, R100 step 3). -/
def speedsRise : List Breakpoint → Bool
  | p :: q :: rest => decide (p.speed < q.speed) && speedsRise (q :: rest)
  | _ => true

/-- LOAD_SDV_CURVE (R100, R101). -/
def takeLoadSdvCurve (z : Zone) (points : List BreakpointWord) (s : State) : Taken :=
  let curve := points.map toBreakpoint
  if points.length < 2 ∨ 16 < points.length then done .badLength s
  else if !speedsRise curve then done .badOrder s
  else
    let s := setZone z (evalSdv s.speed.effective { s.gain.zones.get z with sdv := curve }) s
    done (clampedIf (points.any breakpointClamped)) (reviewPage z (recomputeSpeed (inZone s z) s))

/-! ### Space 6, Routing -/

/-- The slot is the output slot of an enabled channel other than those `skip` picks (R18, R22 check 4). -/
def slotWritten (s : State) (skip : Chan → Bool) (slot : AudioSlot) : Bool :=
  (List.finRange 24).any fun c => !skip c && s.channels[c].out == some slot

/-- The slot is the input slot of a present source (R22 check 5). -/
def slotRead (s : State) (slot : AudioSlot) : Bool := s.sources.toList.any fun r => r == some slot

/-- A slot given with a presence flag; absent where the flag is 0 (R170). -/
def optSlot (present : Bool) (slot : BitVec 5) : Option AudioSlot := if present then some slot.toFin else none

/-- Replaces a source record, zeroing the held sample if the input slot changes (R19). -/
def storeSource (i : SourceId) (slot : Option AudioSlot) (s : State) : State :=
  let h := if s.sources[i] = slot then s.port.held else s.port.held.set i 0
  { s with sources := s.sources.set i slot, port.held := h }

/-- LOAD_SOURCE (R18, R19). -/
def takeLoadSource (source : BitVec 8) (present : Bool) (slot : BitVec 5) (s : State) : Taken :=
  if h : source.toNat < 8 then
    let new := optSlot present slot
    if new.any (slotWritten s fun _ => false) then done .slotConflict s
    else done .ok (storeSource ⟨source.toNat, h⟩ new s)
  else done .badIndex s

/-- A tap of a load with its gain clamped, where its source lies from 0 to 7 (R22 check 3, R23). -/
def toTap (w : TapWord) : Option Tap :=
  if h : w.source.toNat < 8 then
    some { source := ⟨w.source.toNat, h⟩, gain := clamp (-768) 0 w.gain.toInt, duck := w.duck }
  else none

/-- The taps of a load, where every source index lies from 0 to 7. -/
def toTaps : List TapWord → Option (List Tap)
  | [] => some []
  | w :: ws =>
    match toTap w, toTaps ws with
    | some t, some ts => some (t :: ts)
    | _, _ => none

/-- The record a load stores, its fields clamped (R23). -/
def toRecord (w : ChannelWord) (taps : List Tap) : ChannelRecord :=
  { out := optSlot w.slotPresent w.slot, zone := if w.zone then .b else .a, x := clamp (-8) 8 w.x.toInt,
    y := min 15 w.y.toNat, trim := clamp (-96) 96 w.trim.toInt, weight := min 16 w.weight.toNat, taps := taps }

/-- Some numeric field of the load is clamped (R23). -/
def recordClamped (w : ChannelWord) (taps : List TapWord) : Bool :=
  clamp (-8) 8 w.x.toInt != w.x.toInt || decide (15 < w.y.toNat) || clamp (-96) 96 w.trim.toInt != w.trim.toInt
    || decide (16 < w.weight.toNat) || taps.any fun t => clamp (-768) 0 t.gain.toInt != t.gain.toInt

/-- Replaces the record and recomputes the channel's three targets (R24, R53). -/
def storeRecord (c : Chan) (r : ChannelRecord) (s : State) : State :=
  recomputeMute (only c) (recomputeSpeed (only c) (recomputeUser (only c) (setRecord c r s)))

/-- The page request of a zone move or an enable: for the requested page of the zone the record now names, by `ask`
(R140, R141). -/
def askZonePage (ask : Chan → Page → State → State) (c : Chan) (s : State) : State :=
  ask c (s.gain.zones.get s.channels[c].zone).requestedPage s

/-- Re-evaluates the settled flags after a load of channel c that named zone `z` before (R144). -/
def resettleLoad (c : Chan) (z : Zone) (s : State) : State :=
  resettleZones (z == .a || s.channels[c].zone == .a) (z == .b || s.channels[c].zone == .b) s

/-- Empties the output delay of a channel (R25). -/
def emptyDelay (c : Chan) (s : State) : State := { s with port.delays := s.port.delays.set c Delay.empty }

/-- What follows a load that disables the channel, the record being replaced (R25, R139, R141). -/
def disableChannel (c : Chan) (z : Zone) (moved : Bool) (s : State) : State :=
  let s := schedDisable c s
  let s := if moved then askZonePage requestDisabled c s else s
  emptyDelay c (zeroActive c (resettleLoad c z s))

/-- What follows a load that enables the channel, the record being replaced (R26, R140, R141). -/
def enableChannel (c : Chan) (z : Zone) (moved : Bool) (s : State) : State :=
  let s := if moved then askZonePage requestDisabled c s else s
  resettleLoad c z (askZonePage requestEnabled c s)

/-- What follows a load that moves a channel and keeps its enabled state (R27, R141). -/
def moveChannel (c : Chan) (z : Zone) (s : State) : State := resettleLoad c z (askZonePage pageRequest c s)

/-- A load of channel c that has passed its checks (R24 to R27). -/
def loadRecord (c : Chan) (r : ChannelRecord) (s : State) : State :=
  let old := s.channels[c]
  let moved := old.zone != r.zone
  let s := storeRecord c r s
  match old.out.isSome, r.out.isSome with
  | true, false => disableChannel c old.zone moved s
  | false, true => enableChannel c old.zone moved s
  | true, true => if moved then moveChannel c old.zone s else s
  | false, false => if moved then moveChannel c old.zone s else s

/-- LOAD_CHANNEL (R22 to R27). -/
def takeLoadChannel (w : ChannelWord) (taps : List TapWord) (s : State) : Taken :=
  if 4 < taps.length then done .badLength s
  else
    match toChannel w.channel, toTaps taps with
    | some c, some ts =>
      let r := toRecord w ts
      if r.out.any (slotWritten s (only c)) || r.out.any (slotRead s) then done .slotConflict s
      else done (clampedIf (recordClamped w taps)) (loadRecord c r s)
    | _, _ => done .badIndex s

/-! ### Space 7, Equaliser -/

/-- The stability test (R115). -/
def stable (k : Coeffs) : Bool :=
  decide ((k.a2.toInt.natAbs : Int) < 4194304) && decide ((k.a1.toInt.natAbs : Int) < 4194304 + k.a2.toInt)

/-- LOAD_SECTION (R114). -/
def takeLoadSection (index : BitVec 8) (k : Coeffs) (s : State) : Taken :=
  if h : index.toNat < 96 then
    let i : SectionId := ⟨index.toNat, h⟩
    if !stable k then done .unstable s
    else if s.equaliser.sections[i].live ≠ 0 then done .inUse s
    else
      done .ok
        { s with equaliser.sections :=
          s.equaliser.sections.set i { s.equaliser.sections[i] with valid := true, coeffs := k } }
  else done .badIndex s

/-- The section indices of a list, where every one lies from 0 to 95. -/
def toSections : List (BitVec 8) → Option Program
  | [] => some []
  | e :: es =>
    match toSections es with
    | some p => if h : e.toNat < 96 then some (⟨e.toNat, h⟩ :: p) else none
    | none => none

/-- The page is the channel's active page or the target of the fade it is in (R118 check 4). -/
def pageInUse (s : State) (p : Page) (c : Chan) : Bool :=
  match s.sched.switch[c] with
  | .steady a => p == a
  | .queued a _ => p == a
  | .fading a i => p == a || (s.sched.slots[i]).any fun f => f.target == p

/-- Replaces the program of a page and channel (R119). -/
def setProgram (p : Page) (c : Chan) (prog : Program) (s : State) : State :=
  { s with equaliser.programs := s.equaliser.programs.set p (s.equaliser.programs[p].set c prog) }

/-- The page a payload names, where it lies from 0 to 3. -/
def toPage (p : BitVec 4) : Option Page := if h : p.toNat < 4 then some ⟨p.toNat, h⟩ else none

/-- LOAD_PROGRAM (R118, R119). -/
def takeLoadProgram (page : BitVec 4) (channel : BitVec 8) (entries : List (BitVec 8)) (s : State) : Taken :=
  if 6 < entries.length then done .badLength s
  else
    match toPage page, toChannel channel, toSections entries with
    | some p, some c, some prog =>
      if !(prog.all fun i => s.equaliser.sections[i].valid) then done .badRef s
      else if pageInUse s p c then done .inUse s
      else done .ok (setProgram p c prog s)
    | _, _, _ => done .badIndex s

/-- SELECT_PAGE (R107). -/
def takeSelectPage (z : Zone) (page : BitVec 4) (s : State) : Taken :=
  match toPage page with
  | none => done .badIndex s
  | some p => done .ok (reviewPage z (setZone z { s.gain.zones.get z with userPage := p } s))

/-! ### Space 8, Notices -/

/-- SET_NOTICE_ENABLE (R162). -/
def takeSetNoticeEnable (kinds : NoticeSet) (s : State) : Taken :=
  done .ok { s with notices.enabled := kinds, notices.pending := keepKinds s.notices.pending kinds }

/-- STATUS_POLL (R164): the data words are fixed and the pending set emptied in one act. -/
def takeStatusPoll (s : State) : Taken :=
  answerData (statusWords s) { s with notices.pending := NoticeSet.empty }

/-- ROLL_CALL, at its completion: OK with no data words (R166). A broadcast one has made its mark at the header. -/
def takeRollCall (s : State) : Taken := done .ok s

/-- ROLL_CALL_ASSIGN (R165). -/
def takeRollCallAssign (mode bit : BitVec 4) (s : State) : Taken :=
  match mode.toNat with
  | 0 => done .ok { s with notices.roll := .off }
  | 1 => if h : bit.toNat < 8 then done .ok { s with notices.roll := .whenPending ⟨bit.toNat, h⟩ } else done .badIndex s
  | 2 => if h : bit.toNat < 8 then done .ok { s with notices.roll := .whenClear ⟨bit.toNat, h⟩ } else done .badIndex s
  | _ => done .badIndex s

/-- READ_METERS (R168): the data words are fixed and the meters restarted in one act. -/
def takeReadMeters (s : State) : Taken := answerData (meterWords s) { s with output := OutputStage.reset }

/-! ### The command index -/

/-- The owner takes a command, with the zone R153 settles. -/
def takeCommand (z : Zone) (s : State) : Command → Taken
  | .assignAddress address twin => takeAssignAddress address twin s
  | .deviceReset => takeDeviceReset s
  | .readTable selector part => takeReadTable selector part s
  | .setBalance setting => takeSetBalance setting s
  | .setFade setting => takeSetFade setting s
  | .loadBalanceCurve entries => takeLoadBalanceCurve entries s
  | .loadFadeCurve entries => takeLoadFadeCurve entries s
  | .setChannelTrim channel trim => takeSetChannelTrim channel trim s
  | .setChannelMute channel mute => takeSetChannelMute channel mute s
  | .setVolume step => takeSetVolume z step s
  | .stepVolume delta => takeStepVolume z delta s
  | .loadVolumeCurve entries => takeLoadVolumeCurve z entries s
  | .setZoneMute value => takeSetZoneMute z value s
  | .setDuck value => takeSetDuck z value s
  | .setZoneOptions options => takeSetZoneOptions z options s
  | .setRamp lane period first second => takeSetRamp lane period first second s
  | .vehicleState speed valid => takeVehicleState speed valid s
  | .setSpeedPolicy policy => takeSetSpeedPolicy policy s
  | .loadSdvCurve points => takeLoadSdvCurve z points s
  | .loadSource source present slot => takeLoadSource source present slot s
  | .loadChannel record taps => takeLoadChannel record taps s
  | .loadSection index coeffs => takeLoadSection index coeffs s
  | .loadProgram page channel entries => takeLoadProgram page channel entries s
  | .selectPage page => takeSelectPage z page s
  | .setNoticeEnable kinds => takeSetNoticeEnable kinds s
  | .statusPoll => takeStatusPoll s
  | .rollCall => takeRollCall s
  | .rollCallAssign mode bit => takeRollCallAssign mode bit s
  | .readMeters => takeReadMeters s

end Sys2Proof.Machine
end

