-- ==== Sys2Proof/Machine/Ops.lean ====
section
/-! DEFINITION. The Ring Port's operations: resets, what is deferred to the end of an answer, addresses, the judging of a
message, the message assembler, the answer word, the roll-call mark, lock loss and missed SYNCs (chapter 10). -/

namespace Sys2Proof.Machine

/-- Replaces the Ring Port's assembler. -/
def setAssembler (a : Assembler) (s : State) : State := { s with port.assembler := a }

/-- Replaces the Ring Port's answer sender. -/
def setSender (a : Sender) (s : State) : State := { s with port.sender := a }

/-- Replaces the lock state and the miss count. -/
def setLock (l : Lock) (misses : Nat) (s : State) : State := { s with port.lock := l, port.misses := misses }

/-! ### Resets -/

/-- The own address and twin mode that a device reset keeps (R159). An ASSIGN_ADDRESS answer that the reset itself cuts
ends there, so its new address takes effect (R154, assumption 6). -/
def keptAddress (p : RingPort) : Fin 31 × Bool :=
  match p.sender with
  | .answering _ _ (.newAddress a tw) => (a, tw)
  | .answering _ _ .nothing => (p.address, p.twin)
  | .answering _ _ .deviceReset => (p.address, p.twin)
  | .quiet => (p.address, p.twin)

/-- A device reset (R159): every block at its reset values, the own address and twin mode kept. The pins, the frame that
has left and the queue are no block's. -/
def deviceReset (s : State) : State :=
  let kept := keptAddress s.port
  State.blocksReset s.pins kept.1 kept.2 s.ringOut s.pending

/-- A state within an act, and whether a device reset is to follow the act (R159). -/
structure Turn where
  state : State
  reset : Bool

/-- The act ends; a device reset it brought takes effect. -/
def Turn.finish (t : Turn) : State := if t.reset then deviceReset t.state else t.state

/-- What was deferred takes effect (R154, R159). -/
def applyDeferred (d : Deferred) (s : State) : Turn :=
  match d with
  | .nothing => { state := s, reset := false }
  | .newAddress a tw => { state := { s with port.address := a, port.twin := tw }, reset := false }
  | .deviceReset => { state := s, reset := true }

/-- The answer sender returns to QUIET, whether its words are written or cut (R154, R157, R158, R159). -/
def leaveAnswering (s : State) : Turn :=
  match s.port.sender with
  | .quiet => { state := s, reset := false }
  | .answering _ _ after => applyDeferred after (setSender .quiet s)

/-! ### Addresses -/

/-- The broadcast address (R153). -/
def broadcast : BitVec 5 := 31

/-- The address is one the part answers to (R153). -/
def answersTo (p : RingPort) (a : BitVec 5) : Bool :=
  a != broadcast && (if p.twin then a.toNat / 2 == p.address.val / 2 else a.toNat == p.address.val)

/-- The zone a zone command names (R153). -/
def routeZone (p : RingPort) (r : Route) : Zone :=
  if r.address != broadcast && p.twin then (if r.address.toNat % 2 = 0 then .a else .b)
  else if r.zoneBit then .b else .a

/-! ### Messages -/

/-- The answer sender goes to ANSWERING with a result word and data words (R157). -/
def startAnswer (code : ResultCode) (space : BitVec 4) (command : BitVec 8) (data : List Word32) (after : Deferred)
    (s : State) : State :=
  setSender (.answering (resultWord code space command data.length) data after) s

/-- An addressed message while the sender is QUIET: judged by steps 2, 4 and 5 of R156, and answered. -/
def answerMessage (r : Route) (space : BitVec 4) (command : BitVec 8) (m : Reading) (s : State) : State :=
  match m with
  | .unknown => startAnswer .unknownCommand space command [] .nothing s
  | .badLength => startAnswer .badLength space command [] .nothing s
  | .command c =>
    let t := takeCommand (routeZone s.port r) s c
    startAnswer t.code space command t.data t.after t.state

/-- A broadcast message: steps 2 to 5 of R156. It is not answered; what it defers takes effect in the act (R154,
R159). -/
def broadcastMessage (r : Route) (space : BitVec 4) (command : BitVec 8) (m : Reading) (s : State) : Turn :=
  match m with
  | .unknown => { state := s, reset := false }
  | .badLength => { state := s, reset := false }
  | .command c =>
    if isDataCode space command then { state := s, reset := false }
    else
      let t := takeCommand (routeZone s.port r) s c
      applyDeferred t.after t.state

/-- A completed message, addressed to the part or broadcast, is judged (R156). -/
def judgeMessage (r : Route) (space : BitVec 4) (command : BitVec 8) (m : Reading) (s : State) : Turn :=
  if r.address = broadcast then broadcastMessage r space command m s
  else
    match s.port.sender with
    | .answering _ _ _ => { state := notify .ctrlLost s, reset := false }
    | .quiet => { state := answerMessage r space command m s, reset := false }

/-! ### The roll-call mark -/

/-- Rewrites the frame in hand. -/
def mapOut (f : OutFrame → OutFrame) (s : State) : State := { s with ringOut := s.ringOut.map f }

/-- Rewrites the fields of an outgoing frame. -/
def onFields (g : FrameFields → FrameFields) (o : OutFrame) : OutFrame :=
  { o with frame.fields := g o.frame.fields }

/-- CHECK of an intact frame is the check value of its fields as they leave; every other frame keeps CHECK as it
arrived (R147). -/
def recheck (o : OutFrame) : OutFrame :=
  match o.judged with
  | .intact => { o with frame.check := checkValue o.frame.fields }
  | .damaged => o
  | .untouched => o

/-- The bit the roll call marks now, if the assignment's condition on the pending set holds (R166). -/
def rollBit (n : NoticeUnit) : Option (Fin 8) :=
  match n.roll with
  | .off => none
  | .whenPending b => if anyKind n.pending then some b else none
  | .whenClear b => if anyKind n.pending then none else some b

/-- Sets bit `b` of a byte; the others stay (R163, R166). -/
def setBit (b : Nat) (w : BitVec 8) : BitVec 8 := w ||| (1#8 <<< b)

/-- A broadcast ROLL_CALL header is taken: the assigned bit of ROLL is set where the condition holds (R166). The frame
is intact: in a damaged frame the header is not read, and outside the sample path nothing is changed. -/
def markRoll (s : State) : State :=
  match rollBit s.notices with
  | none => s
  | some b =>
    mapOut (fun o =>
      match o.judged with
      | .intact => onFields (fun f => { f with roll := setBit b.val f.roll }) o
      | .damaged => o
      | .untouched => o) s

/-- The header is ROLL_CALL's (12.3). -/
def isRollCall (space : BitVec 4) (command : BitVec 8) : Bool := space == 8 && command == 3

/-! ### The message assembler -/

/-- A message completes: the assembler returns to IDLE and hands it on (R155, R156). -/
def completeMessage (h : Header) (ws : List Payload) (s : State) : Turn :=
  judgeMessage h.route h.space h.command (readMessage h.space h.command ws) (setAssembler .idle s)

/-- A HEADER word starts a message (R155); a broadcast ROLL_CALL header makes its mark (R166). -/
def startMessage (h : Header) (s : State) : Turn :=
  let isBroadcast := h.route.address == broadcast
  let s := if isBroadcast && isRollCall h.space h.command then markRoll s else s
  if isBroadcast || answersTo s.port h.route.address then
    if h.count.toNat = 0 then completeMessage h [] s
    else { state := setAssembler (.collecting h h.count.toNat []) s, reset := false }
  else if h.count.toNat = 0 then { state := setAssembler .idle s, reset := false }
  else { state := setAssembler (.skipping h.count.toNat) s, reset := false }

/-- The message in hand is dropped; one that was COLLECTING hands on CTRL_LOST (R149, R151, R152, R155). -/
def abandonMessage (s : State) : State :=
  match s.port.assembler with
  | .idle => s
  | .collecting _ _ _ => notify .ctrlLost (setAssembler .idle s)
  | .skipping _ => setAssembler .idle s

/-- A PAYLOAD word (R155). -/
def takePayload (w : Payload) (s : State) : Turn :=
  match s.port.assembler with
  | .idle => { state := s, reset := false }
  | .collecting h n ws =>
    if n ≤ 1 then completeMessage h (ws ++ [w]) s
    else { state := setAssembler (.collecting h (n - 1) (ws ++ [w])) s, reset := false }
  | .skipping n => { state := setAssembler (if n ≤ 1 then .idle else .skipping (n - 1)) s, reset := false }

/-- A CLEAR word (R158): IDLE without notice, and QUIET. -/
def takeClear (s : State) : Turn := leaveAnswering (setAssembler .idle s)

/-- The assembler takes a control word (R155). -/
def takeControlWord (w : Word32) (s : State) : Turn :=
  match controlType w with
  | .idle => { state := s, reset := false }
  | .header => startMessage (readHeader w) (abandonMessage s)
  | .payload => takePayload (readPayload w) s
  | .clear => takeClear s

/-! ### Lock -/

/-- A bad or missing SYNC that leaves the part LOCKED: the assembler and the answer sender are reset (R152). -/
def missSync (s : State) : Turn := leaveAnswering (abandonMessage s)

/-- The lock loss (R149), handed to the Page Scheduler (R142) and the Equaliser (R125); the Ramp Engine, the Speed
Tracker and the Notice Unit leave their state as it stands (R67, R96, R161). -/
def loseLock (s : State) : Turn :=
  let s := setLock .unlocked 0 s
  let s := { s with port.held := Vector.replicate 8 0, port.delays := Vector.replicate 24 Delay.empty }
  let t := missSync s
  { t with state := zeroAllChains (schedLockLoss t.state) }

/-- The expected SYNC is bad or missing (R148). -/
def noSync (s : State) : State :=
  match s.port.lock with
  | .unlocked => s
  | .acquiring => setLock .unlocked 0 s
  | .locked =>
    if s.port.misses < 3 then (missSync (setLock .locked (s.port.misses + 1) s)).finish else (loseLock s).finish

/-- The relock (R150), handed to the Ramp Engine (R68), the Speed Tracker (R96) and the Notice Unit (R161). -/
def relock (s : State) : State :=
  notify .relock (setSpeed { s.speed with counter := s.speed.timeout * 480 } (rampRelock (setLock .locked 0 s)))

/-- The part takes commands: the reset pin is released and the ring is LOCKED (R149, R160). -/
def listening (s : State) : Bool := !s.pins.reset && s.port.lock == .locked

/-- A stream that is no frame of the sample path passes as it arrived (R146). -/
def passUntouched (f : RingFrame) (s : State) : State :=
  { s with ringOut := some { frame := f, judged := .untouched } }

end Sys2Proof.Machine
end

