-- ==== Sys2Proof/Machine/Audio.lean ====
section
/-! DEFINITION. The audio of one frame of the sample path: sources, mix, chains, blend, output, output delays and slots
(chapters 1 and 2). Routing is read from `view`, the channel records in force for the frame (R24). -/

namespace Sys2Proof.Machine

/-- The channel records in force for a frame. -/
abbrev View := Vector ChannelRecord 24

/-- The sample of a source for a frame (R28): its slot's content, or its held sample in a damaged frame; 0 if absent. -/
def sourceSample (s : State) (slots : Option (Vector Sample 32)) (i : SourceId) : Sample :=
  match s.sources[i], slots with
  | none, _ => 0
  | some k, some v => v[k]
  | some _, none => s.port.held[i]

/-- The eight source samples of a frame, `slots` being none in a damaged frame (R28). -/
def sourceSamples (s : State) (slots : Option (Vector Sample 32)) : Vector Sample 8 :=
  Vector.ofFn fun i : SourceId => sourceSample s slots i

/-- The held samples after a frame: those of present sources take the sample taken (R28). -/
def heldAfter (s : State) (taken : Vector Sample 8) : Vector Sample 8 :=
  Vector.ofFn fun i : SourceId => if s.sources[i].isSome then taken[i] else s.port.held[i]

/-- The effective gain of a tap (R29). -/
def tapGain (duck : Int) (t : Tap) : Int := if t.duck then t.gain + duck else t.gain

/-- The exact sum of the taps' contributions (R6). -/
def mixSum (taken : Vector Sample 8) (duck : Int) (taps : List Tap) : Int :=
  (taps.map fun t => scale taken[t.source] (tapGain duck t)).sum

/-- What a channel makes of a frame: its written sample, its saturation mark, and its chain states after. -/
structure ChannelRun where
  out : Sample
  clipped : Bool
  active : Chain
  target : Option Chain
  deriving DecidableEq, Repr

/-- The chains and the blend of a channel on its mix sample (R10, R11, R12): the sample for the Output Stage, whether
anything saturated, and the chain states after. `fade` is the fade the channel steps in this frame. -/
def runVoicing (s : State) (c : Chan) (fade : Option Fade) (mix : Sample) : ChannelRun :=
  let active := runChain (coeffsOf s (activePage s.sched.switch[c]) c) s.equaliser.active[c] mix
  match fade, s.equaliser.target[c] with
  | some f, some h =>
    let target := runChain (coeffsOf s f.target c) h mix
    let v := blend active.out target.out (f.k + 1) f.length
    { out := saturate v, clipped := active.clipped || target.clipped || saturates v, active := active.chain,
      target := some target.chain }
  | _, h => { out := active.out, clipped := active.clipped, active := active.chain, target := h }

/-- An enabled channel's run for a frame (R6, R11, R13, R14), on the currents the frame found when it arrived (R61). -/
def runChannel (s : State) (view : View) (cur : LaneValues) (taken : Vector Sample 8) (fade : Option Fade) (c : Chan) :
    ChannelRun :=
  let mix := mixSum taken (cur.duck.get view[c].zone) view[c].taps
  let v := runVoicing s c fade (saturate mix)
  let y := scale v.out (netGain cur.user[c] cur.speed[c] cur.mute[c])
  { v with out := saturate y, clipped := saturates mix || v.clipped || saturates y }

/-- The runs of a frame, none for a disabled channel (R30). -/
abbrev Runs := Vector (Option ChannelRun) 24

/-- The slots that step in this frame: those occupied when the frame arrived (R134, R135). -/
abbrev Stepping := Vector (Option Chan) 8

/-- The slots occupied, each with its channel. -/
def occupied (s : State) : Stepping := Vector.ofFn fun i : FadeSlot => (s.sched.slots[i]).map Fade.channel

/-- The fade in a slot, where the slot still holds the fade that occupied it when the frame arrived. -/
def stepsIn (s : State) (step : Stepping) (i : FadeSlot) : Option Fade :=
  (s.sched.slots[i]).filter fun f => step[i] == some f.channel

/-- The fade a channel steps in this frame. -/
def fadeOf (s : State) (step : Stepping) (c : Chan) : Option Fade :=
  match s.sched.switch[c] with
  | .fading _ i => stepsIn s step i
  | .steady _ => none
  | .queued _ _ => none

/-- The runs of every enabled channel for a frame (R15: each on its own). -/
def runAll (s : State) (view : View) (cur : LaneValues) (step : Stepping) (taken : Vector Sample 8) : Runs :=
  Vector.ofFn fun c : Chan =>
    if view[c].out.isSome then some (runChannel s view cur taken (fadeOf s step c) c) else none

/-- What an enabled channel writes into its slot: the older entry of its output delay, an empty one as 0 (R31). -/
def delayedSample (s : State) (c : Chan) : Sample := s.port.delays[c].older.getD 0

/-- The enabled channel that writes a slot (R32). -/
def writerOf (view : View) (k : AudioSlot) : Option Chan :=
  (List.finRange 24).find? fun c => view[c].out == some k

/-- The slots as they leave (R31, R32): an output slot carries its channel's delayed sample, every other passes. -/
def slotsOut (s : State) (view : View) (slots : Vector Sample 32) : Vector Sample 32 :=
  Vector.ofFn fun k : AudioSlot =>
    match writerOf view k with
    | some c => delayedSample s c
    | none => slots[k]

/-- The output delays after a frame (R31). -/
def delaysAfter (s : State) (runs : Runs) : Vector Delay 24 :=
  Vector.ofFn fun c : Chan =>
    match runs[c] with
    | some r => { older := s.port.delays[c].newer, newer := some r.out }
    | none => s.port.delays[c]

/-- The active chain states after a frame (R124). -/
def activeAfter (s : State) (runs : Runs) : Vector Chain 24 :=
  Vector.ofFn fun c : Chan => (runs[c]).elim s.equaliser.active[c] ChannelRun.active

/-- The target chain states after a frame (R124). -/
def targetAfter (s : State) (runs : Runs) : Vector (Option Chain) 24 :=
  Vector.ofFn fun c : Chan => (runs[c]).elim s.equaliser.target[c] ChannelRun.target

/-- The state after the audio of a frame, the meters and fades apart. -/
def storeAudio (view : View) (taken : Vector Sample 8) (runs : Runs) (s : State) : State :=
  mapOut (onFields fun f => { f with slots := slotsOut s view f.slots })
    { s with port.held := heldAfter s taken, port.delays := delaysAfter s runs,
             equaliser.active := activeAfter s runs, equaliser.target := targetAfter s runs }

end Sys2Proof.Machine
end

