-- ==== Sys2Proof/Machine/DuckInput.lean ====
section
/-! DEFINITION. The Duck Line Input: sampling, deglitching and counting (chapter 5). -/

namespace Sys2Proof.Machine

/-- One sample of the DUCK pin is taken (R79, R81): the count is reloaded, the deglitched level changes when the sample
differs from it and equals the previous sample, and a change is handed on (R82). -/
def takeDuckSample (s : State) : State :=
  let d := s.duck
  let pin := s.pins.duck
  let change := pin != d.level && pin == d.previous
  let s := { s with duck := { count := 48, previous := pin, level := if change then pin else d.level } }
  if change then notify .duckLine (recomputeDuck .b (recomputeDuck .a s)) else s

/-- The sample count counts a frame of the sample path (R79). -/
def countDuck (s : State) : State :=
  if s.duck.count ≤ 1 then takeDuckSample s else { s with duck.count := s.duck.count - 1 }

end Sys2Proof.Machine
end

