-- ==== Sys2Proof/Machine/Frame.lean ====
section
/-! DEFINITION. A frame at the Ring Port (chapter 10): lock, the acts of a frame of the sample path and their order, and
the rows of the table that are events on the ring. -/

namespace Sys2Proof.Machine

/-- A frame of the sample path in hand: the state, whether a device reset is to follow (R159), and what the audio gave. -/
structure FrameRun where
  state : State
  reset : Bool
  runs : Runs

/-- What the acts of one frame read: how the control word is taken, the records in force (R24), the lane currents when
the frame arrived (R61), the crossfade slots that step, and the audio slots where the frame is intact (R28). -/
structure FrameCtx where
  control : State → Turn
  view : View
  currents : LaneValues
  step : Stepping
  slots : Option (Vector Sample 32)

/-! ### The acts -/

/-- The answer sender writes its next word into ANSWER, and leaves ANSWERING after the last (R157). -/
def writeAnswer (s : State) : Turn :=
  match s.port.sender with
  | .quiet => { state := s, reset := false }
  | .answering w rest after =>
    let s := mapOut (onFields fun f => { f with answer := w }) s
    match rest with
    | [] => leaveAnswering s
    | v :: vs => { state := setSender (.answering v vs after) s, reset := false }

/-- The control word is taken, and then the answer word written if the sender was ANSWERING before it (R157, R158). -/
def controlAct (control : State → Turn) (s : State) : Turn :=
  let t := control s
  match s.port.sender with
  | .quiet => t
  | .answering _ _ _ =>
    let w := writeAnswer t.state
    { w with reset := t.reset || w.reset }

/-- The Notice Unit sets the request bit if the pending set is not empty (R163). -/
def requestAct (s : State) : State :=
  if anyKind s.notices.pending then mapOut (onFields fun f => { f with service := setBit 7 f.service }) s else s

/-- The clip counters after a frame (R14, R167). -/
def clipsAfter (s : State) (runs : Runs) : Vector Nat 24 :=
  Vector.ofFn fun c : Chan =>
    match runs[c] with
    | some r => if r.clipped then min 65535 (s.output.clips[c] + 1) else s.output.clips[c]
    | none => s.output.clips[c]

/-- The peak of a zone after a frame (R167). -/
def peakAfter (s : State) (view : View) (runs : Runs) (z : Zone) : Nat :=
  (List.finRange 24).foldl (fun p c =>
    match runs[c] with
    | some r => if view[c].zone = z then max p (magnitude r.out) else p
    | none => p) (s.output.peaks.get z)

/-- Some clip counter goes from 0 to 1 (R167). -/
def newClip (before after : Vector Nat 24) : Bool :=
  (List.finRange 24).any fun c : Chan => before[c] == 0 && after[c] != 0

/-- The marks and written samples of a frame reach the meters (R14, R167). -/
def metersAct (view : View) (runs : Runs) (s : State) : State :=
  let clips := clipsAfter s runs
  notifyIf (newClip s.output.clips clips) .clip
    { s with output := { clips := clips, peaks := { a := peakAfter s view runs .a, b := peakAfter s view runs .b } } }

/-- The slots after their step: k rises by one where the slot steps in this frame and its channel ran (R135). A fade
that reaches L is taken next. -/
def steppedSlots (view : View) (step : Stepping) (s : State) : Vector (Option Fade) 8 :=
  Vector.ofFn fun i : FadeSlot =>
    match stepsIn s step i with
    | some f => if view[f.channel].out.isSome then some { f with k := f.k + 1 } else some f
    | none => s.sched.slots[i]

/-- Every slot takes its step (R135). -/
def stepSlots (view : View) (step : Stepping) (s : State) : State :=
  { s with sched.slots := steppedSlots view step s }

/-- The fade in the slot has reached its length (R135). -/
def reachedEnd (s : State) (i : FadeSlot) : Bool := (s.sched.slots[i]).any fun f => f.length ≤ f.k

/-- The zones of the channels whose fades complete in this frame (R144). -/
def completingIn (s : State) (z : Zone) : Bool :=
  (List.finRange 8).any fun i =>
    reachedEnd s i && (s.sched.slots[i]).any fun f => s.channels[f.channel].zone == z

/-- A fade that has reached its length completes (R136). -/
def completeIfReached (s : State) (i : FadeSlot) : State := if reachedEnd s i then completeFade i s else s

/-- The occupied slots step, and the fades that reach L complete in ascending slot number (R135, R136, R137). DESIGN CHOICE
(assumption 19): the completions of one frame are one act, so a load or a request of that frame is taken before all of them
or after all of them. -/
def fadesAct (view : View) (step : Stepping) (s : State) : State :=
  let s := stepSlots view step s
  resettleZones (completingIn s .a) (completingIn s .b) ((List.finRange 8).foldl completeIfReached s)

/-- The audio of the frame (chapters 1 and 2). -/
def audioAct (x : FrameCtx) (r : FrameRun) : FrameRun :=
  let taken := sourceSamples r.state x.slots
  let runs := runAll r.state x.view x.currents x.step taken
  { r with state := storeAudio x.view taken runs r.state, runs := runs }

/-- One act of a frame. -/
def runAct (x : FrameCtx) (r : FrameRun) : FrameAct → FrameRun
  | .control =>
    let t := controlAct x.control r.state
    { r with state := t.state, reset := r.reset || t.reset }
  | .request => { r with state := requestAct r.state }
  | .meters => { r with state := metersAct x.view r.runs r.state }
  | .fades => { r with state := fadesAct x.view x.step r.state }
  | .count l => { r with state := countLane l r.state }
  | .staleness => { r with state := countStaleness r.state }
  | .duckLine => { r with state := countDuck r.state }

/-! ### The order of the acts -/

/-- The acts of a frame, in the order of its fields and then of its end. -/
def allActs : List FrameAct :=
  [.control, .request, .meters, .fades, .count .user, .count .speed, .count .mute, .count .duck, .staleness, .duckLine]

/-- Adds an act that has not been named. -/
def mention (done : List FrameAct) (a : FrameAct) : List FrameAct := if done.contains a then done else done ++ [a]

/-- Every act once, those of `order` first (assumption 3). -/
def plan (order : FrameOrder) : List FrameAct := (order ++ allActs).foldl mention []

/-- A step of a frame: its audio, or one of its acts. -/
inductive FrameStep where
  | audio
  | act (a : FrameAct)
  deriving DecidableEq, Repr

/-- The act uses what the audio gives, so it follows the audio (R135, R167). -/
def needsAudio : FrameAct → Bool
  | .meters => true
  | .fades => true
  | .control => false
  | .request => false
  | .count _ => false
  | .staleness => false
  | .duckLine => false

/-- The control word changes what the audio of its own frame runs on beyond the view: a source record (R19), or a
channel that it enables (R26). The audio then follows the control word. -/
def changesRouting (before after : State) : Bool :=
  before.sources != after.sources ||
    (List.finRange 24).any fun c => !enabled before c && enabled after c

/-- The steps of a frame in order. The audio comes first, or right after a control word that changes routing; in the
second case the acts that use it come after it. -/
def schedule (order : FrameOrder) (routing : Bool) : List FrameStep :=
  let acts := plan order
  if routing then
    let early := acts.takeWhile fun a => a != .control
    let late := (acts.dropWhile fun a => a != .control).drop 1
    (early.filter fun a => !needsAudio a).map .act ++ [.act .control, .audio] ++
      (early.filter needsAudio ++ late).map .act
  else .audio :: acts.map .act

/-- One step of a frame. -/
def runStep (x : FrameCtx) (r : FrameRun) : FrameStep → FrameRun
  | .audio => audioAct x r
  | .act a => runAct x r a

/-- The steps of a frame of the sample path. -/
def runActs (x : FrameCtx) (order : FrameOrder) (routing : Bool) (s : State) : FrameRun :=
  (schedule order routing).foldl (runStep x) { state := s, reset := false, runs := Vector.replicate 24 none }

/-- A frame of the sample path (R146): its acts, its CHECK (R147), and a device reset at its end (R159). -/
def samplePath (control : State → Turn) (out : OutFrame) (slots : Option (Vector Sample 32)) (duckPin : Bool)
    (order : FrameOrder) (s : State) : State :=
  let s := { s with pins.duck := duckPin, ringOut := some out }
  let after := (controlAct control s).state
  let x : FrameCtx := ⟨control, after.channels, s.ramp.currents, occupied s, slots⟩
  let r := runActs x order (changesRouting s after) s
  ({ state := mapOut recheck r.state, reset := r.reset } : Turn).finish

/-- An intact frame of the sample path (R146, R155). -/
def intactFrame (f : FrameFields) (duckPin : Bool) (order : FrameOrder) (s : State) : State :=
  samplePath (takeControlWord f.control)
    { frame := { sync := syncPattern, fields := f, check := checkValue f }, judged := .intact }
    (some f.slots) duckPin order s

/-- A damaged frame of the sample path (R151): the control word is discarded unread and a message in hand dropped. -/
def damagedPath (f : FrameFields) (check : BitVec 16) (duckPin : Bool) (order : FrameOrder) (s : State) : State :=
  samplePath (fun t => { state := abandonMessage t, reset := false })
    { frame := { sync := syncPattern, fields := f, check := check }, judged := .damaged } none duckPin order s

/-- A good SYNC at the expected place, at the head of frame `g` (R146, R148, R150): `path` is taken where the frame is
one of the sample path. -/
def goodSync (g : RingFrame) (path : State → State) (s : State) : State :=
  if s.pins.reset then passUntouched g s
  else
    match s.port.lock with
    | .unlocked => passUntouched g (setLock .acquiring 0 s)
    | .acquiring => path (relock s)
    | .locked => path (setLock .locked 0 s)

/-! ### Rows: pins and the ring stream -/

/-- RESET_PIN_ASSERTED (R160): every block at its reset values, nothing having left since. The own address and twin
mode keep their values until the release reads the straps (assumption 8). -/
def execResetPinAsserted (s : State) : Host.Outcome State Fault Refusal :=
  .next (State.blocksReset { s.pins with reset := true } s.port.address s.port.twin none s.pending)

/-- RESET_PIN_RELEASED (R160, R153): the straps are read and every block starts from its reset values. -/
def execResetPinReleased (straps : BitVec 5) (twinStrap : Bool) (s : State) : Host.Outcome State Fault Refusal :=
  .next (State.blocksReset { s.pins with reset := false, straps := straps, twinStrap := twinStrap }
    (strapAddress straps) twinStrap none s.pending)

/-- SYNC_FOUND (R148): only an UNLOCKED part searches the stream. -/
def execSyncFound (f : RingFrame) (s : State) : Host.Outcome State Fault Refusal :=
  .next (if s.pins.reset then passUntouched f s
    else
      match s.port.lock with
      | .unlocked => passUntouched f (setLock .acquiring 0 s)
      | .acquiring => s
      | .locked => s)

/-- FRAME (R146): an intact frame, whose CHECK is the check value of its fields. -/
def execFrame (f : FrameFields) (duckPin : Bool) (order : FrameOrder) (s : State) :
    Host.Outcome State Fault Refusal :=
  .next (goodSync { sync := syncPattern, fields := f, check := checkValue f } (intactFrame f duckPin order) s)

/-- DAMAGED_FRAME (R151). The part judges the frame by its CHECK (R147): one that equals the check value is intact. -/
def execDamagedFrame (f : FrameFields) (check : BitVec 16) (duckPin : Bool) (order : FrameOrder) (s : State) :
    Host.Outcome State Fault Refusal :=
  .next (goodSync { sync := syncPattern, fields := f, check := check }
    (if check = checkValue f then intactFrame f duckPin order else damagedPath f check duckPin order) s)

/-- SYNC_BAD (R148, R149, R152): the stream passes as it arrived. -/
def execSyncBad (f : RingFrame) (s : State) : Host.Outcome State Fault Refusal :=
  .next (passUntouched f (if s.pins.reset then s else noSync s))

/-- SYNC_MISSING (R148): handled as a bad SYNC; no frame is in hand. -/
def execSyncMissing (s : State) : Host.Outcome State Fault Refusal :=
  .next { (if s.pins.reset then s else noSync s) with ringOut := none }

end Sys2Proof.Machine
end

