-- ==== Sys2Proof/Machine/Events.lean ====
section
/-! DEFINITION. The rows that are acts of the part on their own: a CLEAR word, the effects deferred to the end of an
answer, and the events of the counters and of the crossfade slots. FRAME makes every one of these itself where it falls
due; a row makes it outside a frame, where its count stands at its last step, and finds nothing to do otherwise
(assumptions 6 and 7). -/

namespace Sys2Proof.Machine

/-- CLEAR (R158). -/
def execClear (s : State) : Host.Outcome State Fault Refusal :=
  .next (if listening s then (takeClear s).finish else s)

/-- NEW_ADDRESS_TAKES_EFFECT (R154). -/
def execNewAddressTakesEffect (s : State) : Host.Outcome State Fault Refusal :=
  .next (match s.port.sender with
    | .answering _ _ (.newAddress _ _) => (leaveAnswering s).finish
    | .answering _ _ .nothing => s
    | .answering _ _ .deviceReset => s
    | .quiet => s)

/-- DEVICE_RESET_TAKES_EFFECT (R159). -/
def execDeviceResetTakesEffect (s : State) : Host.Outcome State Fault Refusal :=
  .next (match s.port.sender with
    | .answering _ _ .deviceReset => (leaveAnswering s).finish
    | .answering _ _ .nothing => s
    | .answering _ _ (.newAddress _ _) => s
    | .quiet => s)

/-- The fade in a slot completes on its own, and the zone of its channel is re-evaluated (R136, R144). -/
def fadeCompletes (i : FadeSlot) (f : Fade) (s : State) : State :=
  resettle s.channels[f.channel].zone (completeFade i s)

/-- FADE_COMPLETE (R135, R136): the slot's fade makes its last step, from k = L - 1, and completes. -/
def execFadeComplete (i : FadeSlot) (s : State) : Host.Outcome State Fault Refusal :=
  .next (match s.sched.slots[i] with
    | some f => if listening s ∧ f.k + 1 = f.length then fadeCompletes i f s else s
    | none => s)

/-- QUEUE_GRANT (R136 step 3, R134): the head of the queue is granted a free slot. -/
def execQueueGrant (i : FadeSlot) (s : State) : Host.Outcome State Fault Refusal :=
  .next (match s.sched.queue, s.sched.slots[i] with
    | d :: _, none => if listening s then resettle s.channels[d].zone (grantHead i s) else s
    | _ :: _, some _ => s
    | [], _ => s)

/-- LANE_TICK (R59, R63): the count makes its last step, from 1, and the lane ticks. -/
def execLaneTick (lane : Lane) (s : State) : Host.Outcome State Fault Refusal :=
  .next (if listening s ∧ (s.ramp.lanes.get lane).count = 1 then tick lane s else s)

/-- STALENESS_EXPIRY (R93, R94): in FRESH the counter makes its last step, from 1, and the timeout has expired. -/
def execStalenessExpiry (s : State) : Host.Outcome State Fault Refusal :=
  .next (if listening s ∧ s.speed.fresh ∧ s.speed.counter = 1 then expiry s else s)

/-- The DUCK pin takes a level. -/
def setDuckPin (pin : Bool) (s : State) : State := { s with pins.duck := pin }

/-- DUCK_SAMPLE (R79, R81): the count makes its last step, from 1, and the pin is sampled. -/
def execDuckSample (pin : Bool) (s : State) : Host.Outcome State Fault Refusal :=
  .next (if listening s ∧ s.duck.count = 1 then takeDuckSample (setDuckPin pin s) else setDuckPin pin s)

end Sys2Proof.Machine
end

