-- ==== Sys2Proof/Machine/Rows.lean ====
section
/-! DEFINITION. The rows that are ring commands: each is a message of that command, completing now at the Ring Port with
its route, judged by R156 and, if it is to be executed, taken by its owner and answered (assumption 6). What the owner
does stands in Machine/Commands.lean. -/

namespace Sys2Proof.Machine

/-- A ring command completes: it is judged where the part takes commands and the command is for it (R153, R156). A
broadcast device reset takes effect at once. -/
def deliver (r : Route) (c : Command) (s : State) : State :=
  if listening s && (r.address == broadcast || answersTo s.port r.address) then
    (judgeMessage r (commandCode c).1 (commandCode c).2 (.command c) s).finish
  else s

/-- A broadcast ROLL_CALL header marks the frame in hand, whose CHECK is renewed (R166). -/
def rollCallHeader (r : Route) (s : State) : State :=
  if listening s && r.address == broadcast then mapOut recheck (markRoll s) else s

/-- ASSIGN_ADDRESS (R154). -/
def execAssignAddress (r : Route) (address : BitVec 5) (twin : BitVec 8) (s : State) :
    Host.Outcome State Fault Refusal :=
  .next (deliver r (.assignAddress address twin) s)

/-- DEVICE_RESET (R159). -/
def execDeviceReset (r : Route) (s : State) : Host.Outcome State Fault Refusal :=
  .next (deliver r .deviceReset s)

/-- READ_TABLE (R172). -/
def execReadTable (r : Route) (selector : BitVec 8) (part : BitVec 8) (s : State) :
    Host.Outcome State Fault Refusal :=
  .next (deliver r (.readTable selector part) s)

/-- SET_BALANCE (R35). -/
def execSetBalance (r : Route) (setting : BitVec 8) (s : State) : Host.Outcome State Fault Refusal :=
  .next (deliver r (.setBalance setting) s)

/-- SET_FADE (R36). -/
def execSetFade (r : Route) (setting : BitVec 8) (s : State) : Host.Outcome State Fault Refusal :=
  .next (deliver r (.setFade setting) s)

/-- LOAD_BALANCE_CURVE (R37). -/
def execLoadBalanceCurve (r : Route) (entries : Vector (BitVec 12) 32) (s : State) :
    Host.Outcome State Fault Refusal :=
  .next (deliver r (.loadBalanceCurve entries) s)

/-- LOAD_FADE_CURVE (R37). -/
def execLoadFadeCurve (r : Route) (entries : Vector (BitVec 12) 32) (s : State) :
    Host.Outcome State Fault Refusal :=
  .next (deliver r (.loadFadeCurve entries) s)

/-- SET_CHANNEL_TRIM (R42). -/
def execSetChannelTrim (r : Route) (channel : BitVec 8) (trim : BitVec 10) (s : State) :
    Host.Outcome State Fault Refusal :=
  .next (deliver r (.setChannelTrim channel trim) s)

/-- SET_CHANNEL_MUTE (R73). -/
def execSetChannelMute (r : Route) (channel : BitVec 8) (mute : BitVec 8) (s : State) :
    Host.Outcome State Fault Refusal :=
  .next (deliver r (.setChannelMute channel mute) s)

/-- SET_VOLUME (R39). -/
def execSetVolume (r : Route) (step : BitVec 8) (s : State) : Host.Outcome State Fault Refusal :=
  .next (deliver r (.setVolume step) s)

/-- STEP_VOLUME (R40). -/
def execStepVolume (r : Route) (delta : BitVec 8) (s : State) : Host.Outcome State Fault Refusal :=
  .next (deliver r (.stepVolume delta) s)

/-- LOAD_VOLUME_CURVE (R41). -/
def execLoadVolumeCurve (r : Route) (entries : Vector (BitVec 12) 64) (s : State) :
    Host.Outcome State Fault Refusal :=
  .next (deliver r (.loadVolumeCurve entries) s)

/-- SET_ZONE_MUTE (R74). -/
def execSetZoneMute (r : Route) (value : BitVec 8) (s : State) : Host.Outcome State Fault Refusal :=
  .next (deliver r (.setZoneMute value) s)

/-- SET_DUCK (R77). -/
def execSetDuck (r : Route) (value : BitVec 8) (s : State) : Host.Outcome State Fault Refusal :=
  .next (deliver r (.setDuck value) s)

/-- SET_ZONE_OPTIONS (R78). -/
def execSetZoneOptions (r : Route) (options : ZoneOptionsWord) (s : State) : Host.Outcome State Fault Refusal :=
  .next (deliver r (.setZoneOptions options) s)

/-- SET_RAMP (R65). -/
def execSetRamp (r : Route) (lane : BitVec 4) (period : BitVec 10) (first : BitVec 8) (second : BitVec 8) (s : State) :
    Host.Outcome State Fault Refusal :=
  .next (deliver r (.setRamp lane period first second) s)

/-- VEHICLE_STATE (R87). -/
def execVehicleState (r : Route) (speed : BitVec 10) (valid : Bool) (s : State) :
    Host.Outcome State Fault Refusal :=
  .next (deliver r (.vehicleState speed valid) s)

/-- SET_SPEED_POLICY (R95). -/
def execSetSpeedPolicy (r : Route) (policy : PolicyWord) (s : State) : Host.Outcome State Fault Refusal :=
  .next (deliver r (.setSpeedPolicy policy) s)

/-- LOAD_SDV_CURVE (R100). -/
def execLoadSdvCurve (r : Route) (points : List BreakpointWord) (s : State) : Host.Outcome State Fault Refusal :=
  .next (deliver r (.loadSdvCurve points) s)

/-- LOAD_SOURCE (R18). -/
def execLoadSource (r : Route) (source : BitVec 8) (slotPresent : Bool) (slot : BitVec 5) (s : State) :
    Host.Outcome State Fault Refusal :=
  .next (deliver r (.loadSource source slotPresent slot) s)

/-- LOAD_CHANNEL (R22). -/
def execLoadChannel (r : Route) (record : ChannelWord) (taps : List TapWord) (s : State) :
    Host.Outcome State Fault Refusal :=
  .next (deliver r (.loadChannel record taps) s)

/-- LOAD_SECTION (R114). -/
def execLoadSection (r : Route) (index : BitVec 8) (coeffs : Coeffs) (s : State) :
    Host.Outcome State Fault Refusal :=
  .next (deliver r (.loadSection index coeffs) s)

/-- LOAD_PROGRAM (R118). -/
def execLoadProgram (r : Route) (page : BitVec 4) (channel : BitVec 8) (entries : List (BitVec 8)) (s : State) :
    Host.Outcome State Fault Refusal :=
  .next (deliver r (.loadProgram page channel entries) s)

/-- SELECT_PAGE (R107). -/
def execSelectPage (r : Route) (page : BitVec 4) (s : State) : Host.Outcome State Fault Refusal :=
  .next (deliver r (.selectPage page) s)

/-- SET_NOTICE_ENABLE (R162). -/
def execSetNoticeEnable (r : Route) (kinds : NoticeSet) (s : State) : Host.Outcome State Fault Refusal :=
  .next (deliver r (.setNoticeEnable kinds) s)

/-- STATUS_POLL (R164). -/
def execStatusPoll (r : Route) (s : State) : Host.Outcome State Fault Refusal :=
  .next (deliver r .statusPoll s)

/-- ROLL_CALL (R166). -/
def execRollCall (r : Route) (s : State) : Host.Outcome State Fault Refusal :=
  .next (deliver r .rollCall (rollCallHeader r s))

/-- ROLL_CALL_ASSIGN (R165). -/
def execRollCallAssign (r : Route) (mode : BitVec 4) (bit : BitVec 4) (s : State) :
    Host.Outcome State Fault Refusal :=
  .next (deliver r (.rollCallAssign mode bit) s)

/-- READ_METERS (R168). -/
def execReadMeters (r : Route) (s : State) : Host.Outcome State Fault Refusal :=
  .next (deliver r .readMeters s)

end Sys2Proof.Machine
end

