-- ==== Sys2Proof/Machine/Dispatch.lean ====
section
/-! DEFINITION. The meaning of every row, one arm each. -/

namespace Sys2Proof.Machine

/-- The effect of a command on everything but the queue. -/
def exec (i : Instr) (s : State) : Host.Outcome State Fault Refusal :=
  match i with
  | .resetPinAsserted => Sys2Proof.Machine.execResetPinAsserted s
  | .resetPinReleased straps twinStrap => Sys2Proof.Machine.execResetPinReleased straps twinStrap s
  | .syncFound f => Sys2Proof.Machine.execSyncFound f s
  | .frame f duckPin order => Sys2Proof.Machine.execFrame f duckPin order s
  | .damagedFrame f check duckPin order => Sys2Proof.Machine.execDamagedFrame f check duckPin order s
  | .syncBad f => Sys2Proof.Machine.execSyncBad f s
  | .syncMissing => Sys2Proof.Machine.execSyncMissing s
  | .clear => Sys2Proof.Machine.execClear s
  | .newAddressTakesEffect => Sys2Proof.Machine.execNewAddressTakesEffect s
  | .deviceResetTakesEffect => Sys2Proof.Machine.execDeviceResetTakesEffect s
  | .fadeComplete slot => Sys2Proof.Machine.execFadeComplete slot s
  | .queueGrant slot => Sys2Proof.Machine.execQueueGrant slot s
  | .laneTick lane => Sys2Proof.Machine.execLaneTick lane s
  | .stalenessExpiry => Sys2Proof.Machine.execStalenessExpiry s
  | .duckSample pin => Sys2Proof.Machine.execDuckSample pin s
  | .assignAddress r address twin => Sys2Proof.Machine.execAssignAddress r address twin s
  | .deviceReset r => Sys2Proof.Machine.execDeviceReset r s
  | .readTable r selector part => Sys2Proof.Machine.execReadTable r selector part s
  | .setBalance r setting => Sys2Proof.Machine.execSetBalance r setting s
  | .setFade r setting => Sys2Proof.Machine.execSetFade r setting s
  | .loadBalanceCurve r entries => Sys2Proof.Machine.execLoadBalanceCurve r entries s
  | .loadFadeCurve r entries => Sys2Proof.Machine.execLoadFadeCurve r entries s
  | .setChannelTrim r channel trim => Sys2Proof.Machine.execSetChannelTrim r channel trim s
  | .setChannelMute r channel mute => Sys2Proof.Machine.execSetChannelMute r channel mute s
  | .setVolume r step => Sys2Proof.Machine.execSetVolume r step s
  | .stepVolume r delta => Sys2Proof.Machine.execStepVolume r delta s
  | .loadVolumeCurve r entries => Sys2Proof.Machine.execLoadVolumeCurve r entries s
  | .setZoneMute r value => Sys2Proof.Machine.execSetZoneMute r value s
  | .setDuck r value => Sys2Proof.Machine.execSetDuck r value s
  | .setZoneOptions r options => Sys2Proof.Machine.execSetZoneOptions r options s
  | .setRamp r lane period first second => Sys2Proof.Machine.execSetRamp r lane period first second s
  | .vehicleState r speed valid => Sys2Proof.Machine.execVehicleState r speed valid s
  | .setSpeedPolicy r policy => Sys2Proof.Machine.execSetSpeedPolicy r policy s
  | .loadSdvCurve r points => Sys2Proof.Machine.execLoadSdvCurve r points s
  | .loadSource r source slotPresent slot => Sys2Proof.Machine.execLoadSource r source slotPresent slot s
  | .loadChannel r record taps => Sys2Proof.Machine.execLoadChannel r record taps s
  | .loadSection r index coeffs => Sys2Proof.Machine.execLoadSection r index coeffs s
  | .loadProgram r page channel entries => Sys2Proof.Machine.execLoadProgram r page channel entries s
  | .selectPage r page => Sys2Proof.Machine.execSelectPage r page s
  | .setNoticeEnable r kinds => Sys2Proof.Machine.execSetNoticeEnable r kinds s
  | .statusPoll r => Sys2Proof.Machine.execStatusPoll r s
  | .rollCall r => Sys2Proof.Machine.execRollCall r s
  | .rollCallAssign r mode bit => Sys2Proof.Machine.execRollCallAssign r mode bit s
  | .readMeters r => Sys2Proof.Machine.execReadMeters r s

end Sys2Proof.Machine
end

