-- ==== Sys2Proof/Machine/Encode.lean ====
section
/-! DEFINITION. The words in which a master sends a command: the header of 12.2 and the payload words of 12.4, each field
at its width, from bit 29 down, the bits left over 0. Operands.lean reads them back (readMessage). -/

namespace Sys2Proof.Machine

/-- A one-bit field of a payload word. -/
def bit (b : Bool) : BitVec 1 := BitVec.ofBool b

/-- One curve word: two 12-bit entries, the earlier first (12.4). -/
def curveWord (a b : BitVec 12) : Payload := a ++ b ++ (0 : BitVec 6)

/-- The words of a list of curve entries, two to a word. -/
def curveWords : List (BitVec 12) → List Payload
  | a :: b :: rest => curveWord a b :: curveWords rest
  | [a] => [curveWord a 0]
  | [] => []

/-- A breakpoint word of LOAD_SDV_CURVE (12.4). -/
def breakpointPayload (p : BreakpointWord) : Payload :=
  p.speed ++ p.boost ++ bit p.pagePresent ++ p.page ++ (0 : BitVec 7)

/-- A tap word of LOAD_CHANNEL (12.4). -/
def tapPayload (t : TapWord) : Payload := t.source ++ t.gain ++ bit t.duck ++ (0 : BitVec 9)

/-- A word whose first field is an 8-bit number (12.4). -/
def byteWord (v : BitVec 8) : Payload := v ++ (0 : BitVec 22)

/-- A coefficient word of LOAD_SECTION (12.4). -/
def coeffWord (k : Coeff) : Payload := k ++ (0 : BitVec 6)

/-- The payload words of a command (12.4). A count inside the payload is the length of the list sent. -/
def payloadWords : Command → List Payload
  | .assignAddress address twin => [address ++ twin ++ (0 : BitVec 17)]
  | .deviceReset => []
  | .readTable selector part => [selector ++ part ++ (0 : BitVec 14)]
  | .setBalance setting => [byteWord setting]
  | .setFade setting => [byteWord setting]
  | .loadBalanceCurve entries => curveWords entries.toList
  | .loadFadeCurve entries => curveWords entries.toList
  | .setChannelTrim channel trim => [channel ++ trim ++ (0 : BitVec 12)]
  | .setChannelMute channel mute => [channel ++ mute ++ (0 : BitVec 14)]
  | .setVolume step => [byteWord step]
  | .stepVolume delta => [byteWord delta]
  | .loadVolumeCurve entries => curveWords entries.toList
  | .setZoneMute value => [byteWord value]
  | .setDuck value => [byteWord value]
  | .setZoneOptions o =>
    [o.depth ++ o.ceiling ++ o.exponent ++ (0 : BitVec 4), o.mask ++ o.speedPages ++ (0 : BitVec 14)]
  | .setRamp lane period first second => [lane ++ period ++ first ++ second]
  | .vehicleState speed valid => [speed ++ bit valid ++ (0 : BitVec 19)]
  | .setSpeedPolicy p =>
    [p.jump ++ p.hysteresis ++ p.timeout ++ (0 : BitVec 4), p.fallback ++ (0 : BitVec 20)]
  | .loadSdvCurve points => byteWord (BitVec.ofNat 8 points.length) :: points.map breakpointPayload
  | .loadSource source present slot => [source ++ bit present ++ slot ++ (0 : BitVec 16)]
  | .loadChannel w taps =>
    (w.channel ++ bit w.slotPresent ++ w.slot ++ bit w.zone ++ BitVec.ofNat 3 taps.length ++ w.x ++ w.y
      ++ (0 : BitVec 2)) :: (w.trim ++ w.weight ++ (0 : BitVec 15)) :: taps.map tapPayload
  | .loadSection index k =>
    [byteWord index, coeffWord k.b0, coeffWord k.b1, coeffWord k.b2, coeffWord k.a1, coeffWord k.a2]
  | .loadProgram page channel entries =>
    (page ++ channel ++ BitVec.ofNat 4 entries.length ++ (0 : BitVec 14)) :: entries.map byteWord
  | .selectPage page => [page ++ (0 : BitVec 26)]
  | .setNoticeEnable k =>
    [bit k.relock ++ bit k.speedLost ++ bit k.ctrlLost ++ bit k.clip ++ bit k.pageSettled ++ bit k.duckLine
      ++ (0 : BitVec 24)]
  | .statusPoll => []
  | .rollCall => []
  | .rollCallAssign mode b => [mode ++ b ++ (0 : BitVec 22)]
  | .readMeters => []

/-- The lists of the command are no longer than the count inside its payload can say (R171, 12.4). -/
def sendable : Command → Bool
  | .loadSdvCurve points => decide (points.length ≤ 254)
  | .loadChannel _ taps => decide (taps.length ≤ 7)
  | .loadProgram _ _ entries => decide (entries.length ≤ 15)
  | .assignAddress _ _ => true
  | .deviceReset => true
  | .readTable _ _ => true
  | .setBalance _ => true
  | .setFade _ => true
  | .loadBalanceCurve _ => true
  | .loadFadeCurve _ => true
  | .setChannelTrim _ _ => true
  | .setChannelMute _ _ => true
  | .setVolume _ => true
  | .stepVolume _ => true
  | .loadVolumeCurve _ => true
  | .setZoneMute _ => true
  | .setDuck _ => true
  | .setZoneOptions _ => true
  | .setRamp _ _ _ _ => true
  | .vehicleState _ _ => true
  | .setSpeedPolicy _ => true
  | .loadSource _ _ _ => true
  | .loadSection _ _ => true
  | .selectPage _ => true
  | .setNoticeEnable _ => true
  | .statusPoll => true
  | .rollCall => true
  | .rollCallAssign _ _ => true
  | .readMeters => true

/-- The HEADER word that starts a message of the command by a route (12.2, 12.3, R169). -/
def headerWord (r : Route) (c : Command) : Word32 :=
  (1 : BitVec 2) ++ r.address ++ bit r.zoneBit ++ (commandCode c).1 ++ (commandCode c).2
    ++ BitVec.ofNat 8 (payloadWords c).length ++ (0 : BitVec 4)

/-- A PAYLOAD word (12.2). -/
def payloadWord (w : Payload) : Word32 := (2 : BitVec 2) ++ w

end Sys2Proof.Machine
end

