-- ==== Sys2Proof/Safety.lean ====
section
/-! DEFINITION. What a safe state is: the twelve laws of the part and the ranges the chapters give, as predicates on one
state, and the conditions under which a ring command is taken. Every invariant here is meant to be kept by every step. -/

namespace Sys2Proof.Machine

/-! ### Lanes, prescalers, speed, notices, meters -/

/-- Every lane value lies within its lane's range (R58). -/
structure LaneValues.InRange (v : LaneValues) : Prop where
  user : ∀ c : Chan, -768 ≤ v.user[c] ∧ v.user[c] ≤ 96
  speed : ∀ c : Chan, -96 ≤ v.speed[c] ∧ v.speed[c] ≤ 96
  mute : ∀ c : Chan, -768 ≤ v.mute[c] ∧ v.mute[c] ≤ 0
  duck : ∀ z : Zone, -768 ≤ v.duck.get z ∧ v.duck.get z ≤ 0

/-- The second law (R63): every current, and every target it moves toward, stays within its lane's range. The duck
depth bounds the duck targets (R75). -/
structure LanesInv (s : State) : Prop where
  currents : s.ramp.currents.InRange
  targets : s.gain.targets.InRange
  depth : ∀ z : Zone, (s.gain.zones.get z).depth ≤ 768

/-- The settings and count of one prescaler are in range (R59, R62). -/
structure LaneSettings.InRange (lane : Lane) (l : LaneSettings) : Prop where
  period : l.period ≤ 255
  first : 1 ≤ l.first ∧ l.first ≤ 96
  second : if hasRelease lane then 1 ≤ l.second ∧ l.second ≤ 96 else l.second = 0
  count : 1 ≤ l.count ∧ l.count ≤ 12288

/-- Every prescaler and every sample count is in range (R59, R79). -/
structure CountersInv (s : State) : Prop where
  lanes : ∀ l : Lane, (s.ramp.lanes.get l).InRange l
  duckCount : 1 ≤ s.duck.count ∧ s.duck.count ≤ 48

/-- The ninth law with the ranges of R85 and R86: the effective speed lies from the accepted speed to the accepted speed
plus H, and in STALE both are the fallback and no candidate waits. -/
structure SpeedInv (s : State) : Prop where
  band : s.speed.accepted ≤ s.speed.effective ∧ s.speed.effective ≤ s.speed.accepted + s.speed.hysteresis
  effective : s.speed.effective ≤ 400
  candidate : ∀ k ∈ s.speed.candidate, k ≤ 400
  counter : s.speed.counter ≤ 122400
  policy : s.speed.jump ≤ 255 ∧ s.speed.hysteresis ≤ 31 ∧ s.speed.timeout ≤ 255 ∧ s.speed.fallback ≤ 400
  stale : s.speed.fresh = false →
    s.speed.candidate = none ∧ s.speed.accepted = s.speed.fallback ∧ s.speed.effective = s.speed.fallback

/-- The first half of the eleventh law (R162): every pending notice is of an enabled kind. -/
def NoticesInv (s : State) : Prop :=
  ∀ k : NoticeKind, hasKind s.notices.pending k = true → hasKind s.notices.enabled k = true

/-- The twelfth law (R167). -/
structure MetersInv (s : State) : Prop where
  clips : ∀ c : Chan, s.output.clips[c] ≤ 65535
  peaks : ∀ z : Zone, s.output.peaks.get z ≤ 8388608

/-! ### The gain plan is up to date -/

/-- Every target, boost, band and requested page is the one its inputs give now (R52, R47, R103, R105). -/
structure PlanInv (s : State) : Prop where
  user : ∀ c : Chan, s.gain.targets.user[c] =
    userTarget s.gain.cabin (s.gain.zones.get s.channels[c].zone) s.channels[c]
  speed : ∀ c : Chan, s.gain.targets.speed[c] =
    speedTarget (s.gain.zones.get s.channels[c].zone) s.channels[c]
  mute : ∀ c : Chan, s.gain.targets.mute[c] =
    muteTarget s.gain.mutes[c] (s.gain.zones.get s.channels[c].zone)
  duck : ∀ z : Zone, s.gain.targets.duck.get z = duckTarget (s.gain.zones.get z) s.duck.level
  boost : ∀ z : Zone, (s.gain.zones.get z).boost = sdvBoost (s.gain.zones.get z).sdv s.speed.effective
  band : ∀ z : Zone, (s.gain.zones.get z).band = sdvBand (s.gain.zones.get z).sdv s.speed.effective
  requested : ∀ z : Zone, (s.gain.zones.get z).requestedPage = evalRequested (s.gain.zones.get z)

/-! ### Routing -/

/-- No slot is written twice or both read and written (R32), and the fields of the records are in range (R20, R21). -/
structure RoutingInv (s : State) : Prop where
  writtenOnce : ∀ c d : Chan, ∀ k : AudioSlot, s.channels[c].out = some k → s.channels[d].out = some k → c = d
  notRead : ∀ c : Chan, ∀ i : SourceId, ∀ k : AudioSlot, s.channels[c].out = some k → s.sources[i] ≠ some k
  taps : ∀ c : Chan, s.channels[c].taps.length ≤ 4 ∧ ∀ t ∈ s.channels[c].taps, -768 ≤ t.gain ∧ t.gain ≤ 0
  placement : ∀ c : Chan, -8 ≤ s.channels[c].x ∧ s.channels[c].x ≤ 8 ∧ s.channels[c].y ≤ 15
  levels : ∀ c : Chan, -96 ≤ s.channels[c].trim ∧ s.channels[c].trim ≤ 96 ∧ s.channels[c].weight ≤ 16

/-- A disabled channel has an empty output delay and a chain of zero history (R25, R26). -/
structure DisabledInv (s : State) : Prop where
  delay : ∀ c : Chan, s.channels[c].out = none → s.port.delays[c] = Delay.empty
  silent : ∀ c : Chan, s.channels[c].out = none → ∀ h ∈ s.equaliser.active[c], h = Position.zero

/-! ### Page Scheduler and Equaliser -/

/-- The slot of a FADING channel (R128). -/
def Switch.slot : Switch → Option FadeSlot
  | .steady _ => none
  | .queued _ _ => none
  | .fading _ i => some i

/-- The pending page of a QUEUED channel (R128). -/
def Switch.waitingFor : Switch → Option Page
  | .steady _ => none
  | .queued _ q => some q
  | .fading _ _ => none

/-- The page of a STEADY channel (R128). -/
def Switch.steadyOn : Switch → Option Page
  | .steady p => some p
  | .queued _ _ => none
  | .fading _ _ => none

/-- The third, fourth, fifth, sixth and tenth laws (R128, R129, R130, R135), and what they stand on. -/
structure SchedInv (s : State) : Prop where
  /-- a FADING channel occupies the slot its state names -/
  fading : ∀ c : Chan, ∀ i ∈ (s.sched.switch[c]).slot, (s.sched.slots[i]).map Fade.channel = some c
  /-- an occupied slot holds a channel that is FADING in it, from the slot's old page -/
  occupied : ∀ i : FadeSlot, ∀ f ∈ s.sched.slots[i], s.sched.switch[f.channel] = .fading f.old i
  /-- the target page differs from the old page, and a next target from the target -/
  pages : ∀ i : FadeSlot, ∀ f ∈ s.sched.slots[i], f.target ≠ f.old ∧ f.next ≠ some f.target
  /-- 0 ≤ k < L, and L is a length an exponent can give -/
  progress : ∀ i : FadeSlot, ∀ f ∈ s.sched.slots[i], f.k < f.length ∧ 256 ≤ f.length ∧ f.length ≤ 8192
  /-- a pending page differs from the active page -/
  waiting : ∀ c : Chan, ∀ q ∈ (s.sched.switch[c]).waitingFor, q ≠ activePage s.sched.switch[c]
  /-- the queue holds each channel at most once -/
  once : s.sched.queue.Nodup
  /-- the queue holds exactly the QUEUED channels -/
  queued : ∀ c : Chan, c ∈ s.sched.queue ↔ (s.sched.switch[c]).waitingFor.isSome = true
  /-- while a channel waits, all eight slots are occupied -/
  full : s.sched.queue ≠ [] → ∀ i : FadeSlot, (s.sched.slots[i]).isSome = true
  /-- a disabled channel is STEADY -/
  disabled : ∀ c : Chan, s.channels[c].out = none → (s.sched.switch[c]).steadyOn.isSome = true
  /-- the crossfade length exponents are in range (R108) -/
  exponent : ∀ z : Zone, 8 ≤ (s.gain.zones.get z).exponent ∧ (s.gain.zones.get z).exponent ≤ 13

/-- The page a channel is on its way to (R144). -/
def destination (s : State) (c : Chan) : Page :=
  match s.sched.switch[c] with
  | .steady p => p
  | .queued _ q => q
  | .fading p i =>
    match s.sched.slots[i] with
    | some f => f.next.getD f.target
    | none => p

/-- Every channel is on its way to its zone's requested page (R144), and the settled flags say which zones have arrived. -/
structure PagesInv (s : State) : Prop where
  onTheWay : ∀ c : Chan, destination s c = (s.gain.zones.get s.channels[c].zone).requestedPage
  settled : ∀ z : Zone, s.sched.settled.get z = isSettled s z

/-- The target page of a FADING channel (R128). -/
def targetPage (s : State) (c : Chan) : Option Page :=
  ((s.sched.switch[c]).slot.bind fun i => s.sched.slots[i]).map Fade.target

/-- The appearances of a section in the running programs of one channel (R120). -/
def appearancesIn (s : State) (i : SectionId) (c : Chan) : Nat :=
  (programOf s (activePage s.sched.switch[c]) c).count i +
    ((targetPage s c).map fun q => (programOf s q c).count i).getD 0

/-- The appearances of a section in the running programs (R120). -/
def appearances (s : State) (i : SectionId) : Nat := ((List.finRange 24).map (appearancesIn s i)).sum

/-- The seventh law (R120) and the chain states (R124), with what R117 says of the programs. -/
structure EqualiserInv (s : State) : Prop where
  live : ∀ i : SectionId, (s.equaliser.sections[i]).live = appearances s i
  active : ∀ c : Chan, s.equaliser.active[c].length = (programOf s (activePage s.sched.switch[c]) c).length
  target : ∀ c : Chan, (s.equaliser.target[c]).map List.length =
    (targetPage s c).map fun q => (programOf s q c).length
  programs : ∀ p : Page, ∀ c : Chan, (programOf s p c).length ≤ 6 ∧
    ∀ i ∈ programOf s p c, (s.equaliser.sections[i]).valid = true

/-! ### Ring Port -/

/-- What the assembler and the answer sender may hold (R155, R157, R148). -/
structure PortInv (s : State) : Prop where
  misses : s.port.misses ≤ 3
  collecting : ∀ h n ws, s.port.assembler = .collecting h n ws → 1 ≤ n ∧ ws.length + n = h.count.toNat
  skipping : ∀ n, s.port.assembler = .skipping n → 1 ≤ n ∧ n ≤ 255
  deferred : ∀ w rest d, s.port.sender = .answering w rest d → d ≠ .nothing → rest = []

/-- While the ring is not LOCKED the part has nothing in hand (R148, R149, R142): no miss counted, no message, no
answer, no held sample, empty output delays, free slots and an empty queue. -/
structure LostInv (s : State) : Prop where
  misses : s.port.lock ≠ .locked → s.port.misses = 0
  assembler : s.port.lock ≠ .locked → s.port.assembler = .idle
  sender : s.port.lock ≠ .locked → s.port.sender = .quiet
  held : s.port.lock ≠ .locked → ∀ i : SourceId, s.port.held[i] = 0
  delays : s.port.lock ≠ .locked → ∀ c : Chan, s.port.delays[c] = Delay.empty
  slots : s.port.lock ≠ .locked → ∀ i : FadeSlot, s.sched.slots[i] = none
  queue : s.port.lock ≠ .locked → s.sched.queue = []
  steady : s.port.lock ≠ .locked → ∀ c : Chan, (s.sched.switch[c]).steadyOn.isSome = true

/-- While the reset pin is asserted every block is held at its reset values (R160). -/
def HeldInReset (s : State) : Prop :=
  s.pins.reset = true → s = State.blocksReset s.pins s.port.address s.port.twin s.ringOut s.pending

/-! ### When a ring command is taken -/

/-- The part takes an addressed command by this route now: the pin released, the ring LOCKED, the answer sender QUIET,
and the header's address one the part answers to (R149, R153, R156, R160). -/
structure Ready (s : State) (r : Route) : Prop where
  pin : s.pins.reset = false
  lock : s.port.lock = .locked
  quiet : s.port.sender = .quiet
  address : answersTo s.port r.address = true

/-- The part takes a broadcast by this route now (R153, R156). -/
structure ReadyBroadcast (s : State) (r : Route) : Prop where
  pin : s.pins.reset = false
  lock : s.port.lock = .locked
  address : r.address = 31

/-- The state with the answer sender ANSWERING: a result word with the code and the command's space and number, then the
data words; `after` takes effect when the sender leaves ANSWERING (R157). -/
def State.answering (s : State) (code : ResultCode) (space : BitVec 4) (command : BitVec 8) (data : List Word32)
    (after : Deferred) : State :=
  { s with port.sender := .answering (resultWord code space command data.length) data after }

/-- The command `i` of this space and number completes by every route the part takes it by, from state `s`: addressed,
it leaves `t z` and is answered with `code z`; broadcast, it leaves `t z` unanswered; `z` is the zone R153 settles. It
carries no data words and defers nothing. -/
structure Completes (i : Route → Instr) (space : BitVec 4) (command : BitVec 8) (s : State) (code : Zone → ResultCode)
    (t : Zone → State) : Prop where
  addressed : ∀ r : Route, Ready s r →
    exec (i r) s = .next ((t (routeZone s.port r)).answering (code (routeZone s.port r)) space command [] .nothing)
  broadcast : ∀ r : Route, ReadyBroadcast s r → exec (i r) s = .next (t (if r.zoneBit then .b else .a))

/-- The row of a command by a route. -/
def rowOf (r : Route) : Command → Instr
  | .assignAddress address twin => .assignAddress r address twin
  | .deviceReset => .deviceReset r
  | .readTable selector part => .readTable r selector part
  | .setBalance setting => .setBalance r setting
  | .setFade setting => .setFade r setting
  | .loadBalanceCurve entries => .loadBalanceCurve r entries
  | .loadFadeCurve entries => .loadFadeCurve r entries
  | .setChannelTrim channel trim => .setChannelTrim r channel trim
  | .setChannelMute channel mute => .setChannelMute r channel mute
  | .setVolume step => .setVolume r step
  | .stepVolume delta => .stepVolume r delta
  | .loadVolumeCurve entries => .loadVolumeCurve r entries
  | .setZoneMute value => .setZoneMute r value
  | .setDuck value => .setDuck r value
  | .setZoneOptions options => .setZoneOptions r options
  | .setRamp lane period first second => .setRamp r lane period first second
  | .vehicleState speed valid => .vehicleState r speed valid
  | .setSpeedPolicy policy => .setSpeedPolicy r policy
  | .loadSdvCurve points => .loadSdvCurve r points
  | .loadSource source present slot => .loadSource r source present slot
  | .loadChannel record taps => .loadChannel r record taps
  | .loadSection index coeffs => .loadSection r index coeffs
  | .loadProgram page channel entries => .loadProgram r page channel entries
  | .selectPage page => .selectPage r page
  | .setNoticeEnable kinds => .setNoticeEnable r kinds
  | .statusPoll => .statusPoll r
  | .rollCall => .rollCall r
  | .rollCallAssign mode bit => .rollCallAssign r mode bit
  | .readMeters => .readMeters r

/-- `t` differs from `s` only where page requests act: the Page Scheduler, the live counts and chain states of the
Equaliser, and the pending notices (R132 to R144). -/
structure OnlyPagesMove (s t : State) : Prop where
  pins : t.pins = s.pins
  port : t.port = s.port
  sources : t.sources = s.sources
  channels : t.channels = s.channels
  programs : t.equaliser.programs = s.equaliser.programs
  coeffs : ∀ i : SectionId, (t.equaliser.sections[i]).coeffs = (s.equaliser.sections[i]).coeffs ∧
    (t.equaliser.sections[i]).valid = (s.equaliser.sections[i]).valid
  gain : t.gain = s.gain
  ramp : t.ramp = s.ramp
  speed : t.speed = s.speed
  duck : t.duck = s.duck
  output : t.output = s.output
  enabled : t.notices.enabled = s.notices.enabled
  roll : t.notices.roll = s.notices.roll
  kinds : ∀ k : NoticeKind, k ≠ .pageSettled → hasKind t.notices.pending k = hasKind s.notices.pending k
  keeps : hasKind s.notices.pending .pageSettled = true → hasKind t.notices.pending .pageSettled = true
  raises : hasKind t.notices.pending .pageSettled = true →
    hasKind s.notices.pending .pageSettled = true ∨ hasKind s.notices.enabled .pageSettled = true
  ringOut : t.ringOut = s.ringOut
  pending : t.pending = s.pending

/-- A set of page requests, one channel at a time in ascending channel number, each finding the state the ones before it
left (R131): every channel whose zone's requested page changed from `s` to `u` is asked for the new one (R106). -/
def askAll (s u : State) : State :=
  (List.finRange 24).foldl (fun t c =>
    let z := u.channels[c].zone
    if (u.gain.zones.get z).requestedPage = (s.gain.zones.get z).requestedPage then t
    else pageRequest c (u.gain.zones.get z).requestedPage t) u

/-- PAGE_SETTLED as R144 records it from `s` to `t`: pending after exactly where it was pending before, or the kind is
enabled and some zone's settled flag went from clear to set. -/
def SettledNotice (s t : State) : Prop :=
  hasKind t.notices.pending .pageSettled = true ↔
    hasKind s.notices.pending .pageSettled = true ∨
      (hasKind s.notices.enabled .pageSettled = true ∧
        ∃ z : Zone, s.sched.settled.get z = false ∧ t.sched.settled.get z = true)

/-- The settled flags after an event that touched the zones `touched` picks: the flag of such a zone is set exactly where
every channel whose record names it is STEADY on its requested page, and the others stand (R144). -/
def FlagsAfter (touched : Zone → Prop) (s t : State) : Prop :=
  ∀ z : Zone,
    (touched z → (t.sched.settled.get z = true ↔ ∀ c : Chan, t.channels[c].zone = z →
      t.sched.switch[c] = .steady (t.gain.zones.get z).requestedPage)) ∧
    (¬ touched z → t.sched.settled.get z = s.sched.settled.get z)

/-! ### The grant of a freed slot -/

/-- A fade of `d` from `p` to `q`, as the state `s` has its zone's exponent and its programs, starts in slot `i` and stands
at its start in `t` (R134, R121). -/
structure Starts (s : State) (i : FadeSlot) (d : Chan) (p q : Page) (t : State) : Prop where
  switch : t.sched.switch[d] = .fading p i
  slot : t.sched.slots[i] =
    some { channel := d, old := p, target := q, k := 0, length := 2 ^ (s.gain.zones.get s.channels[d].zone).exponent,
           next := none }
  target : t.equaliser.target[d] = some (List.replicate (programOf s q d).length Position.zero)

/-- From `s` to `t` slot `i` is freed and granted to the head of the queue, if there is one (R136 step 3). -/
structure SlotPasses (s : State) (i : FadeSlot) (t : State) : Prop where
  others : ∀ j : FadeSlot, j ≠ i → t.sched.slots[j] = s.sched.slots[j]
  free : s.sched.queue = [] → t.sched.slots[i] = none ∧ t.sched.queue = []
  head : ∀ (d : Chan) (rest : List Chan) (p q : Page), s.sched.queue = d :: rest → s.sched.switch[d] = .queued p q →
    Starts s i d p q t ∧ t.sched.queue = rest

/-- The appearances of a section in the program that the head of the queue starts to run at a grant (R134, R121). -/
def headCount (s : State) (n : SectionId) : Nat :=
  (s.sched.queue.head?.bind fun d => (s.sched.switch[d]).waitingFor.map fun q => (programOf s q d).count n).getD 0

/-- From `s` to `t` every channel but `c`, and but the head of the queue where `granting`, keeps its switch state and its
chain states. -/
structure OthersStay (s : State) (c : Chan) (granting : Prop) (t : State) : Prop where
  voicing : ∀ d : Chan, d ≠ c → (granting → s.sched.queue.head? ≠ some d) →
    t.sched.switch[d] = s.sched.switch[d] ∧ t.equaliser.target[d] = s.equaliser.target[d]
  active : ∀ d : Chan, d ≠ c → t.equaliser.active[d] = s.equaliser.active[d]

/-- `t` is what page requests make of `u`, the state `s` with its settings, targets and requested pages already new
(R106): only pages move; the requests are taken as one set in ascending channel number (R131); where no requested page
changed it is `u` itself; a channel whose zone's requested page did not change keeps its switch
state; every channel is then on its way to its zone's requested page, and the settled flags and their notice are
those of R144. -/
structure MovesPages (s u t : State) : Prop where
  only : OnlyPagesMove u t
  switch : t.sched.switch = (askAll s u).sched.switch
  slots : t.sched.slots = (askAll s u).sched.slots
  queue : t.sched.queue = (askAll s u).sched.queue
  equaliser : t.equaliser = (askAll s u).equaliser
  same : (∀ z : Zone, (u.gain.zones.get z).requestedPage = (s.gain.zones.get z).requestedPage) → t = u
  unasked : ∀ c : Chan, (u.gain.zones.get u.channels[c].zone).requestedPage =
    (s.gain.zones.get u.channels[c].zone).requestedPage → t.sched.switch[c] = s.sched.switch[c]
  onTheWay : SchedInv s → PagesInv s → ∀ c : Chan,
    destination t c = (u.gain.zones.get u.channels[c].zone).requestedPage
  flags : FlagsAfter (fun z => (u.gain.zones.get z).requestedPage ≠ (s.gain.zones.get z).requestedPage) s t
  notice : SettledNotice u t

/-- The command completes as `Completes` says, and hands page requests on: it leaves a `t` that page requests make of
`u z`. -/
structure CompletesAskingPages (i : Route → Instr) (space : BitVec 4) (command : BitVec 8) (s : State)
    (code : Zone → ResultCode) (u : Zone → State) : Prop where
  addressed : ∀ r : Route, Ready s r → ∃ t : State,
    exec (i r) s = .next (t.answering (code (routeZone s.port r)) space command [] .nothing) ∧
      MovesPages s (u (routeZone s.port r)) t
  broadcast : ∀ r : Route, ReadyBroadcast s r → ∃ t : State,
    exec (i r) s = .next t ∧ MovesPages s (u (if r.zoneBit then .b else .a)) t

/-- One lane's targets, those of the channels of zone `z` formed by `f` from the zone record and the channel's (R53). -/
def zoneTargets (z : Zone) (zone : ZoneRecord) (channels : Vector ChannelRecord 24)
    (f : ZoneRecord → ChannelRecord → Int) (old : Vector Int 24) : Vector Int 24 :=
  Vector.ofFn fun c : Chan => if channels[c].zone = z then f zone channels[c] else old[c]

/-- A zone record at effective speed `v`: its boost, band and requested page evaluated (R102, R103, R105). -/
def ZoneRecord.atSpeed (v : Nat) (z : ZoneRecord) : ZoneRecord :=
  let y := { z with boost := sdvBoost z.sdv v, band := sdvBand z.sdv v }
  { y with requestedPage := evalRequested y }

/-- The Gain Planner's settings and targets once it has taken the tracker's effective speed (R110). -/
def State.atEffectiveSpeed (s : State) : State :=
  let a := s.gain.zones.a.atSpeed s.speed.effective
  let b := s.gain.zones.b.atSpeed s.speed.effective
  let zs : PerZone ZoneRecord := { a := a, b := b }
  let t := Vector.ofFn fun c : Chan => speedTarget (zs.get s.channels[c].zone) s.channels[c]
  { s with gain.zones := zs, gain.targets.speed := t }

/-- The state after the tracker's record becomes `r`: a changed effective speed is taken by the Gain Planner (R92). -/
def State.withTracker (s : State) (r : SpeedTracker) : State :=
  if r.effective = s.speed.effective then { s with speed := r } else ({ s with speed := r } : State).atEffectiveSpeed

/-! ### What a frame defers, and what its acts can change -/

/-- What is deferred to the end of the answer in hand (R154, R159). -/
def Sender.deferred : Sender → Deferred
  | .quiet => .nothing
  | .answering _ _ d => d

/-- What a frame with control word `w` lets take effect: its sender writes the last word of the answer, or a CLEAR word
cuts it (R154, R158, R159). -/
def Sender.deferredIn (w : Word32) : Sender → Deferred
  | .quiet => .nothing
  | .answering _ rest d => if w.extractLsb' 30 2 = 3 ∨ rest = [] then d else .nothing

/-- The state once what was deferred to the end of an answer has taken effect on `t`, whose sender is QUIET (R154,
R159). -/
def State.once (t : State) : Deferred → State
  | .nothing => t
  | .newAddress a twin => { t with port.address := a, port.twin := twin }
  | .deviceReset => State.blocksReset t.pins t.port.address t.port.twin t.ringOut t.pending

/-- The assembler is COLLECTING. -/
def isCollecting : Assembler → Bool
  | .idle => false
  | .collecting _ _ _ => true
  | .skipping _ => false

/-- CTRL_LOST recorded, if its kind is enabled, where a message is being collected (R149, R151, R152, R155). -/
def State.collectingLost (s : State) : State :=
  { s with notices.pending.ctrlLost :=
      s.notices.pending.ctrlLost || (isCollecting s.port.assembler && s.notices.enabled.ctrlLost) }

/-- The message and the answer in hand are dropped, a message being collected with CTRL_LOST (R149, R152). -/
def State.handsEmpty (s : State) : State :=
  { s.collectingLost with port.assembler := .idle, port.sender := .quiet }

/-- The header is that of a broadcast ROLL_CALL (R166). -/
def callsRoll (h : Header) : Prop := h.route.address = 31 ∧ h.space = 8 ∧ h.command = 3

/-- The control word `w` completes no message that an owner could take: IDLE and CLEAR; a header that does not complete
one, or is another node's, or a broadcast ROLL_CALL's; a payload word that is not the last outstanding (R155). -/
def HandsNothing (s : State) (w : Word32) : Prop :=
  (w.extractLsb' 30 2 = 1 → (readHeader w).count ≠ 0 ∨ callsRoll (readHeader w) ∨
    ((readHeader w).route.address ≠ 31 ∧ answersTo s.port (readHeader w).route.address = false)) ∧
  (w.extractLsb' 30 2 = 2 → ∀ h n ws, s.port.assembler = .collecting h n ws → 2 ≤ n)

/-- The sample a present source takes in an intact frame with these slots, and 0 for an absent one (R28). -/
def samplesFrom (s : State) (slots : Vector Sample 32) : Vector Sample 8 :=
  Vector.ofFn fun i : SourceId =>
    match s.sources[i] with
    | some k => slots[k]
    | none => 0

/-- The held sample of a present source, and 0 for an absent one (R28). -/
def samplesHeld (s : State) : Vector Sample 8 :=
  Vector.ofFn fun i : SourceId => if s.sources[i] = none then 0 else s.port.held[i]

/-- The run of channel `c` in a frame whose records in force are `view`, its audio made of the state `s` (R10 to R14,
R24), on the currents and the crossfade slots `arrived` has as the frame arrives (R61, R134, R135). -/
def frameRun (arrived s : State) (view : View) (taken : Vector Sample 8) (c : Chan) : ChannelRun :=
  runChannel s view arrived.ramp.currents taken (fadeOf s (occupied arrived) c) c

/-- How the audio of a frame leaves its slots and output delays (R31, R32): an output slot carries its channel's delayed
sample, every other passes, and each delay takes the channel's written sample. -/
structure AudioMoves (arrived s : State) (view : View) (taken : Vector Sample 8) (f o : FrameFields) (t : State) :
    Prop where
  written : ∀ (c : Chan) (k : AudioSlot), view[c].out = some k → o.slots[k] = (s.port.delays[c].older).getD 0
  passed : ∀ k : AudioSlot, (∀ c : Chan, view[c].out ≠ some k) → o.slots[k] = f.slots[k]
  delays : ∀ c : Chan, view[c].out ≠ none → t.port.delays[c] =
    { older := s.port.delays[c].newer, newer := some (frameRun arrived s view taken c).out }

/-- A slot whose fade reaches its length in this frame (R135). -/
def completesIn (s : State) (i : FadeSlot) : Bool := (s.sched.slots[i]).any fun f => f.k + 1 == f.length

/-- The channel is FADING, and its fade reaches its length in this frame. -/
def arrivesIn (s : State) (c : Chan) : Bool := (s.sched.switch[c]).slot.any fun i => completesIn s i

/-- The marks and written samples of one frame reach the meters from `x` to `y` (R14, R30, R167): `runs` are the runs of the
channels enabled in `view`. CLIP is recorded exactly where its kind is enabled and a counter goes from 0 to 1 (R161). -/
structure Metered (runs : Chan → ChannelRun) (view : View) (x y : State) : Prop where
  clips : ∀ c : Chan, y.output.clips[c] =
    if view[c].out ≠ none ∧ (runs c).clipped = true then min 65535 (x.output.clips[c] + 1) else x.output.clips[c]
  notice : y.notices.pending.clip = true ↔ x.notices.pending.clip = true ∨
    (x.notices.enabled.clip = true ∧ ∃ c : Chan, x.output.clips[c] = 0 ∧ y.output.clips[c] ≠ 0)
  peaks : ∀ z : Zone, x.output.peaks.get z ≤ y.output.peaks.get z ∧
    (∀ c : Chan, view[c].out ≠ none → view[c].zone = z → magnitude (runs c).out ≤ y.output.peaks.get z) ∧
    (y.output.peaks.get z = x.output.peaks.get z ∨ ∃ c : Chan, view[c].out ≠ none ∧ view[c].zone = z ∧
      y.output.peaks.get z = magnitude (runs c).out)

/-- The chain states of channel `c`, enabled through a frame with the run `run`, after it (R9, R122, R124): its active
chain ran, or, where its fade reaches its length, its target chain did and is the active one; the target chain of a fade
that goes on ran too. `s` is the state the frame found. -/
structure ChainsAfter (s : State) (run : ChannelRun) (c : Chan) (t : State) : Prop where
  active : arrivesIn s c = false → t.equaliser.active[c] = run.active
  arrived : arrivesIn s c = true → ∀ h ∈ run.target, t.equaliser.active[c] = h
  target : ∀ (p : Page) (i : FadeSlot), s.sched.switch[c] = .fading p i → completesIn s i = false →
    t.equaliser.target[c] = run.target

/-- What a frame leaves of the meters and of the chains of its channels (R14, R30, R124, R167). The chains are left open
where the staleness counter runs out in the frame: its page requests may replace them. -/
structure ChannelsAfter (s : State) (taken : Vector Sample 8) (t : State) : Prop where
  meters : Metered (frameRun s s s.channels taken) s.channels s t
  disabled : ∀ c : Chan, s.channels[c].out = none → t.port.delays[c] = s.port.delays[c]
  chains : s.speed.fresh = false ∨ s.speed.counter ≠ 1 → ∀ c : Chan,
    (s.channels[c].out = none → t.equaliser.active[c] = s.equaliser.active[c] ∧
      t.equaliser.target[c] = s.equaliser.target[c]) ∧
    (s.channels[c].out ≠ none → ChainsAfter s (frameRun s s s.channels taken c) c t)

/-! ### What a frame counts -/

/-- A current moved one step toward its target and never past it (R63). -/
def towards (up down cur tgt : Int) : Int :=
  if cur < tgt then min tgt (cur + up) else if tgt < cur then max tgt (cur - down) else cur

/-- The values of one lane: 24 channels, or the two zones (R58). -/
def LaneValues.ofLane (v : LaneValues) : Lane → List Int
  | .user => v.user.toList
  | .speed => v.speed.toList
  | .mute => v.mute.toList
  | .duck => [v.duck.a, v.duck.b]

/-- From `x` to `y` the prescaler of lane `l` counts one frame; at its last step it is reloaded and every current of the
lane moves toward its target among `tgt`, up by the lane's step or its release step and down by its step or its attack
step (R59, R60, R63). -/
structure LaneCounts (l : Lane) (x : State) (tgt : LaneValues) (y : State) : Prop where
  count : y.ramp.lanes.get l =
    { x.ramp.lanes.get l with
      count := if (x.ramp.lanes.get l).count ≤ 1 then 48 * ((x.ramp.lanes.get l).period + 1)
               else (x.ramp.lanes.get l).count - 1 }
  currents : y.ramp.currents.ofLane l =
    if (x.ramp.lanes.get l).count ≤ 1 then
      List.zipWith
        (towards (if l = .user ∨ l = .speed then (x.ramp.lanes.get l).first else (x.ramp.lanes.get l).second)
          (x.ramp.lanes.get l).first)
        (x.ramp.currents.ofLane l) (tgt.ofLane l)
    else x.ramp.currents.ofLane l

/-- Lane `l` has the same settings, count and currents in `x` and `y`. -/
def LaneStands (l : Lane) (x y : State) : Prop :=
  y.ramp.lanes.get l = x.ramp.lanes.get l ∧ y.ramp.currents.ofLane l = x.ramp.currents.ofLane l

/-- The tracker's record after the staleness counter has counted one frame (R93, R94). -/
def SpeedTracker.counted (r : SpeedTracker) : SpeedTracker :=
  if r.fresh = false ∨ r.counter = 0 then r
  else if r.counter = 1 then
    { r with fresh := false, candidate := none, accepted := r.fallback, effective := r.fallback, counter := 0 }
  else { r with counter := r.counter - 1 }

/-- What follows, from `x` to `y`, from what the tracker's record and the deglitched DUCK line become in `y` (R92, R110,
R82): the zones and the speed targets are those of the new effective speed, and a changed line has both duck targets
formed anew. -/
structure PlanFollows (x y : State) : Prop where
  zones : y.gain.zones = (x.withTracker y.speed).gain.zones
  speed : y.gain.targets.speed = (x.withTracker y.speed).gain.targets.speed
  lineStands : y.duck.level = x.duck.level → y.gain.targets.duck = x.gain.targets.duck
  lineChanges : y.duck.level ≠ x.duck.level → ∀ z : Zone,
    y.gain.targets.duck.get z = duckTarget (x.gain.zones.get z) y.duck.level

/-- The fades in a frame from `s` to `t` that leaves the channel records `view` (R134 to R136): the fade of a channel that
stays enabled makes one step, keeping its slot, or arrives on its target; and every fade in a slot afterwards is such a
one, or has just started. -/
structure FadesAfter (s : State) (view : View) (t : State) : Prop where
  goesOn : ∀ (j : FadeSlot) (g : Fade), s.sched.slots[j] = some g → view[g.channel].out ≠ none → g.k + 1 < g.length →
    (∃ n : Option Page, t.sched.slots[j] = some { g with k := g.k + 1, next := n }) ∧
      t.sched.switch[g.channel] = .fading g.old j
  arrives : ∀ (j : FadeSlot) (g : Fade), s.sched.slots[j] = some g → view[g.channel].out ≠ none → g.k + 1 = g.length →
    activePage t.sched.switch[g.channel] = g.target
  onlyThese : ∀ (j : FadeSlot) (h : Fade), t.sched.slots[j] = some h → h.k = 0 ∨
    ∃ g : Fade, s.sched.slots[j] = some g ∧ g.k + 1 < g.length ∧ h = { g with k := g.k + 1, next := h.next }

/-- What the acts of a frame other than its control word cannot change, from `s` to `u` (R66, R97, R126, R138, R162): all
that a ring command reads or writes but for currents and counts, the speed record with what follows from it, pages,
meters, and notices they add. `s` is a state with a frame in hand. -/
structure FrameActs (s u : State) : Prop where
  pins : u.pins = s.pins
  lock : u.port.lock = s.port.lock ∧ u.port.misses = s.port.misses
  assembler : u.port.assembler = s.port.assembler
  sender : u.port.sender = s.port.sender
  address : u.port.address = s.port.address ∧ u.port.twin = s.port.twin
  sources : u.sources = s.sources
  channels : u.channels = s.channels
  programs : u.equaliser.programs = s.equaliser.programs
  sections : ∀ i : SectionId, (u.equaliser.sections[i]).coeffs = (s.equaliser.sections[i]).coeffs ∧
    (u.equaliser.sections[i]).valid = (s.equaliser.sections[i]).valid
  cabin : u.gain.cabin = s.gain.cabin
  mutes : u.gain.mutes = s.gain.mutes
  targets : u.gain.targets.user = s.gain.targets.user ∧ u.gain.targets.mute = s.gain.targets.mute
  zones : ∀ z : Zone, u.gain.zones.get z =
    { s.gain.zones.get z with boost := (u.gain.zones.get z).boost, band := (u.gain.zones.get z).band,
                              requestedPage := (u.gain.zones.get z).requestedPage }
  paces : ∀ l : Lane, u.ramp.lanes.get l = { s.ramp.lanes.get l with count := (u.ramp.lanes.get l).count }
  plan : PlanFollows s u
  policy : u.speed.jump = s.speed.jump ∧ u.speed.hysteresis = s.speed.hysteresis ∧
    u.speed.timeout = s.speed.timeout ∧ u.speed.fallback = s.speed.fallback
  notices : u.notices.enabled = s.notices.enabled ∧ u.notices.roll = s.notices.roll
  kinds : ∀ k : NoticeKind, hasKind s.notices.pending k = true → hasKind u.notices.pending k = true
  added : ∀ k : NoticeKind, hasKind u.notices.pending k = true → hasKind s.notices.pending k = true ∨
    (hasKind s.notices.enabled k = true ∧ k ≠ .relock ∧ k ≠ .ctrlLost)
  frame : ∀ o ∈ s.ringOut, ∃ x ∈ u.ringOut, x.judged = o.judged ∧ x.frame.sync = o.frame.sync ∧
    x.frame.fields.control = o.frame.fields.control ∧ x.frame.fields.answer = o.frame.fields.answer ∧
    x.frame.fields.roll = o.frame.fields.roll ∧
    (x.frame.fields.service = o.frame.fields.service ∨
      x.frame.fields.service = o.frame.fields.service ||| 128#8)
  queue : u.pending = s.pending

/-- The rows of a list, one after another, on `s`; the outcome of the first that does not give a next state otherwise. -/
def execAll : List Instr → State → Host.Outcome State Fault Refusal
  | [], s => .next s
  | i :: rest, s =>
    match exec i s with
    | .next t => execAll rest t
    | .fault f => .fault f
    | .refused r => .refused r

/-- The fades that do not complete in this frame, one step on (R135). -/
def State.fadesStepped (s : State) : State :=
  { s with sched.slots := Vector.ofFn fun i : FadeSlot =>
      if completesIn s i then s.sched.slots[i] else (s.sched.slots[i]).map fun f => { f with k := f.k + 1 } }

/-- FADE_COMPLETE of the slots whose fades complete in this frame, in ascending slot number (R137). -/
def completionRows (s : State) : List Instr :=
  ((List.finRange 8).filter fun i => completesIn s i).map .fadeComplete

/-! ### How many words a message takes, and which of their bits it reads -/

/-- The payload count a command of the index requires, given its first payload word if it has one (12.3, R171); none
where a count inside the payload is to be read and there is no first word. The three counts inside a payload stand where
12.4 lists them. -/
def requiredWords (space code : Nat) (first : Option Payload) : Option Nat :=
  match space, code with
  | 1, 2 => some 0
  | 2, 3 => some 16
  | 2, 4 => some 16
  | 3, 3 => some 32
  | 3, 6 => some 2
  | 5, 2 => some 2
  | 5, 3 => first.map fun w => 1 + (w.extractLsb' 22 8).toNat
  | 6, 2 => first.map fun w => 2 + (w.extractLsb' 12 3).toNat
  | 7, 1 => some 6
  | 7, 2 => first.map fun w => 1 + (w.extractLsb' 14 4).toNat
  | 8, 2 => some 0
  | 8, 3 => some 0
  | 8, 5 => some 0
  | _, _ => some 1

/-- How many bits of payload word `i`, from its top down, the layouts of 12.4 assign (R170). -/
def assignedBits (space code i : Nat) : Nat :=
  match space, code, i with
  | 1, 1, _ => 13
  | 1, 3, _ => 16
  | 2, 3, _ => 24
  | 2, 4, _ => 24
  | 2, 5, _ => 18
  | 2, 6, _ => 16
  | 3, 3, _ => 24
  | 3, 6, 0 => 26
  | 3, 6, _ => 16
  | 4, 1, _ => 30
  | 5, 1, _ => 11
  | 5, 2, 0 => 26
  | 5, 2, _ => 10
  | 5, 3, 0 => 8
  | 5, 3, _ => 23
  | 6, 1, _ => 14
  | 6, 2, 0 => 28
  | 6, 2, 1 => 15
  | 6, 2, _ => 21
  | 7, 1, 0 => 8
  | 7, 1, _ => 24
  | 7, 2, 0 => 16
  | 7, 2, _ => 8
  | 7, 3, _ => 4
  | 8, 1, _ => 6
  | _, _, _ => 8

end Sys2Proof.Machine
end

