-- ==== Sys2Proof/WellFormed.lean ====
section
/-! DEFINITION. Which commands are well formed: those a ring partner or the part itself can bring about. -/

namespace Sys2Proof

/-- Every act is named at most once. -/
def namesOnce : FrameOrder → Bool
  | [] => true
  | a :: rest => !rest.contains a && namesOnce rest

/-- The command is well formed: SYNC_FOUND carries the SYNC pattern and SYNC_BAD another (R148), the CHECK of a damaged
frame is not its check value (R147), an order names no act twice, and a list is no longer than the count field of its
message can declare (R171, 12.2, 12.4). -/
def Instr.wellFormed : Instr → Bool
  | .syncFound f => f.sync == Machine.syncPattern
  | .syncBad f => f.sync != Machine.syncPattern
  | .frame _ _ order => namesOnce order
  | .damagedFrame f check _ order => check != Machine.checkValue f && namesOnce order
  | .loadSdvCurve _ points => decide (points.length ≤ 254)
  | .loadChannel _ _ taps => decide (taps.length ≤ 7)
  | .loadProgram _ _ _ entries => decide (entries.length ≤ 15)
  | .resetPinAsserted => true
  | .resetPinReleased _ _ => true
  | .syncMissing => true
  | .clear => true
  | .newAddressTakesEffect => true
  | .deviceResetTakesEffect => true
  | .fadeComplete _ => true
  | .queueGrant _ => true
  | .laneTick _ => true
  | .stalenessExpiry => true
  | .duckSample _ => true
  | .assignAddress _ _ _ => true
  | .deviceReset _ => true
  | .readTable _ _ _ => true
  | .setBalance _ _ => true
  | .setFade _ _ => true
  | .loadBalanceCurve _ _ => true
  | .loadFadeCurve _ _ => true
  | .setChannelTrim _ _ _ => true
  | .setChannelMute _ _ _ => true
  | .setVolume _ _ => true
  | .stepVolume _ _ => true
  | .loadVolumeCurve _ _ => true
  | .setZoneMute _ _ => true
  | .setDuck _ _ => true
  | .setZoneOptions _ _ => true
  | .setRamp _ _ _ _ _ => true
  | .vehicleState _ _ _ => true
  | .setSpeedPolicy _ _ => true
  | .loadSource _ _ _ _ => true
  | .loadSection _ _ _ => true
  | .selectPage _ _ => true
  | .setNoticeEnable _ _ => true
  | .statusPoll _ => true
  | .rollCall _ => true
  | .rollCallAssign _ _ _ => true
  | .readMeters _ => true

end Sys2Proof
end

