-- ==== Sys2Proof/Certificates/Slice0/Obligations.lean ====
section
/-! DEFINITION. The statements for the provers. "Stated" ones formalise whole rules of spec/; the others rest on the
sections their entries in OBLIGATIONS.json cite. -/

section

open Sys2Proof Sys2Proof.Machine

/-! ### Stepping, reset -/

/-- A step takes the command at the front of the queue and is exec of it on the state with the queue's rest; on an empty
queue the block idles (the model's choice, assumption 1). -/
def Obligations.StepRunsFront : Prop :=
  (∀ (c : Instr) (rest : List Instr) (s : State), s.pending = c :: rest →
    step s = exec c { s with pending := rest }) ∧
  (∀ s : State, s.pending = [] → step s = .next s)

/-- Every command completes in every state, and none touches the queue: no row stops with a fault or a refusal. The queue
is the model's (assumption 1); and that a row which is not due, not heard, or finds the reset pin held completes by finding
nothing to do is the model's too (assumptions 6, 7 and 16). The spec gives every command of its index an effect. -/
def Obligations.EveryCommandCompletes : Prop :=
  ∀ (c : Instr) (s : State), ∃ t : State, exec c s = .next t ∧ t.pending = s.pending

/-- The reset pin (R160, R153): asserted, every block is at its reset values; released, the own address is the straps'
number, 31 taken as 30, and the twin mode the twin strap. What the blocks hold then is spelled out. (That no frame has
left since, and that the address waits for the release, are the model's: assumptions 4 and 8.) -/
def Obligations.ResetPin : Prop :=
  (∀ s : State, exec .resetPinAsserted s =
    .next (State.blocksReset { s.pins with reset := true } s.port.address s.port.twin none s.pending)) ∧
  (∀ (straps : BitVec 5) (twin : Bool) (s : State), ∃ n : Fin 31, n.val = min 30 straps.toNat ∧
    exec (.resetPinReleased straps twin) s =
      .next (State.blocksReset { s.pins with reset := false, straps := straps, twinStrap := twin } n twin none
        s.pending)) ∧
  (∀ (pins : Pins) (n : Fin 31) (twin : Bool) (o : Option OutFrame) (q : List Instr),
    let t := State.blocksReset pins n twin o q
    t.port.lock = .unlocked ∧ t.port.misses = 0 ∧ t.port.assembler = .idle ∧ t.port.sender = .quiet ∧
    t.port.address = n ∧ t.port.twin = twin ∧ (∀ i : SourceId, t.port.held[i] = 0 ∧ t.sources[i] = none) ∧
    (∀ c : Chan, t.port.delays[c] = { older := none, newer := none } ∧
      t.channels[c] = { out := none, zone := .a, x := 0, y := 0, trim := 0, weight := 16, taps := [] } ∧
      t.sched.switch[c] = .steady 0 ∧ t.equaliser.active[c] = [] ∧ t.equaliser.target[c] = none ∧
      t.gain.mutes[c] = false ∧ t.gain.targets.user[c] = -768 ∧ t.gain.targets.speed[c] = 0 ∧
      t.gain.targets.mute[c] = -768 ∧ t.output.clips[c] = 0 ∧ ∀ p : Page, programOf t p c = []) ∧
    (∀ i : SectionId, (t.equaliser.sections[i]).valid = false ∧ (t.equaliser.sections[i]).live = 0) ∧
    (∀ i : FadeSlot, t.sched.slots[i] = none) ∧ t.sched.queue = [] ∧ t.sched.settled = { a := true, b := true } ∧
    t.gain.cabin.balance = 0 ∧ t.gain.cabin.fade = 0 ∧
    (∀ k : Fin 32, t.gain.cabin.balanceCurve[k] = 0 ∧ t.gain.cabin.fadeCurve[k] = 0) ∧
    (∀ z : Zone, (t.gain.zones.get z).step = 0 ∧ (t.gain.zones.get z).mute = true ∧
      (t.gain.zones.get z).commandDuck = false ∧ (t.gain.zones.get z).depth = 0 ∧ (t.gain.zones.get z).mask = true ∧
      (t.gain.zones.get z).ceiling = 0 ∧ (t.gain.zones.get z).exponent = 10 ∧
      (t.gain.zones.get z).speedPages = false ∧ (t.gain.zones.get z).boost = 0 ∧ (t.gain.zones.get z).band = 0 ∧
      (t.gain.zones.get z).userPage = 0 ∧ (t.gain.zones.get z).requestedPage = 0 ∧
      (t.gain.zones.get z).curve[(0 : Fin 64)] = -768 ∧
      (∀ k : Fin 64, 1 ≤ k.val → (t.gain.zones.get z).curve[k] = 12 * (k.val : Int) - 756) ∧
      (t.gain.zones.get z).sdv = [{ speed := 0, boost := 0, page := none }, { speed := 400, boost := 0, page := none }] ∧
      t.gain.targets.duck.get z = 0 ∧ t.output.peaks.get z = 0) ∧
    t.ramp.currents = t.gain.targets ∧
    t.speed = { fresh := false, accepted := 0, effective := 0, candidate := none, counter := 0, jump := 30,
                hysteresis := 3, timeout := 50, fallback := 0 } ∧
    t.duck = { count := 48, previous := false, level := false } ∧
    (∀ k : NoticeKind, hasKind t.notices.enabled k = false ∧ hasKind t.notices.pending k = false) ∧
    t.notices.roll = .off)

/-- R69: the four lanes' settings and counts after power-on reset and after a device reset, the ring UNLOCKED, and the
counts standing still in the frames that pass until lock. -/
def Obligations.LaneSettingsAfterReset : Prop :=
  let afterReset : State → Prop := fun t =>
    t.port.lock = .unlocked ∧
    t.ramp.lanes.user = { period := 0, first := 2, second := 0, count := 48 } ∧
    t.ramp.lanes.speed = { period := 49, first := 1, second := 0, count := 2400 } ∧
    t.ramp.lanes.mute = { period := 0, first := 16, second := 4, count := 48 } ∧
    t.ramp.lanes.duck = { period := 0, first := 8, second := 2, count := 48 }
  afterReset State.reset ∧
  (∀ (straps : BitVec 5) (twin : Bool) (s : State), ∃ t : State,
    exec (.resetPinReleased straps twin) s = .next t ∧ afterReset t) ∧
  (∀ (r : Route) (s : State), ReadyBroadcast s r → ∃ t : State, exec (.deviceReset r) s = .next t ∧ afterReset t) ∧
  (∀ (s : State) (w : Word32) (rest : List Word32), s.port.sender = .answering w rest .deviceReset →
    ∃ t : State, exec .deviceResetTakesEffect s = .next t ∧ afterReset t) ∧
  (∀ (s : State) (f : FrameFields) (d : Bool) (o : FrameOrder), s.port.lock = .unlocked →
    ∃ t : State, exec (.frame f d o) s = .next t ∧ t.ramp = s.ramp)

/-- Every invariant of Safety.lean holds right after reset. -/
def Obligations.InvariantsAtReset : Prop :=
  LanesInv State.reset ∧ CountersInv State.reset ∧ SpeedInv State.reset ∧ NoticesInv State.reset ∧
  MetersInv State.reset ∧ PlanInv State.reset ∧ RoutingInv State.reset ∧ DisabledInv State.reset ∧
  SchedInv State.reset ∧ PagesInv State.reset ∧ EqualiserInv State.reset ∧ PortInv State.reset ∧
  LostInv State.reset ∧ HeldInReset State.reset

/-! ### Lock -/

/-- The lock table of R148 row by row, the pin released: a SYNC found, a good SYNC (at an intact or a damaged frame), a bad
and a missing one, UNLOCKED, ACQUIRING and LOCKED with 0 to 2 misses (the fourth is LockLossBringsRest). A stream that is
no frame of the sample path passes as it arrived (R146). The first frame of an ACQUIRING part is that of the LOCKED part
the relock leaves (R150, R68, R96). A missed SYNC that leaves the part LOCKED drops whatever message and answer are in
hand, a message being collected with CTRL_LOST, and what the answer had deferred takes effect (R152, R154, R159). While the
reset pin is asserted every frame passes as it arrived and nothing else changes (R160). That a
FRAME stands for the SYNC an UNLOCKED part finds, and that a SYNC found by a part that is not UNLOCKED changes nothing, are
the model's (assumption 11), and so is ringOut (assumption 4). -/
def Obligations.LockTransitions : Prop :=
  (∀ s : State, s.pins.reset = true →
    let passes : Instr → RingFrame → Prop := fun i g =>
      exec i s = .next { s with ringOut := some { frame := g, judged := .untouched } }
    (∀ g : RingFrame, passes (.syncFound g) g ∧ passes (.syncBad g) g) ∧
    (∀ (f : FrameFields) (d : Bool) (o : FrameOrder),
      passes (.frame f d o) { sync := 0xB5C3, fields := f, check := checkValue f }) ∧
    (∀ (f : FrameFields) (check : BitVec 16) (d : Bool) (o : FrameOrder),
      passes (.damagedFrame f check d o) { sync := 0xB5C3, fields := f, check := check }) ∧
    exec .syncMissing s = .next { s with ringOut := none }) ∧
  ∀ s : State, s.pins.reset = false →
    (s.port.lock = .unlocked →
      (∀ f : RingFrame, exec (.syncFound f) s =
        .next { s with port.lock := .acquiring, port.misses := 0,
                       ringOut := some { frame := f, judged := .untouched } }) ∧
      (∀ (f : FrameFields) (d : Bool) (o : FrameOrder), exec (.frame f d o) s =
        .next { s with port.lock := .acquiring, port.misses := 0,
                       ringOut := some { frame := { sync := 0xB5C3, fields := f, check := checkValue f },
                                         judged := .untouched } }) ∧
      (∀ (f : FrameFields) (check : BitVec 16) (d : Bool) (o : FrameOrder), exec (.damagedFrame f check d o) s =
        .next { s with port.lock := .acquiring, port.misses := 0,
                       ringOut := some { frame := { sync := 0xB5C3, fields := f, check := check },
                                         judged := .untouched } }) ∧
      (∀ f : RingFrame, exec (.syncBad f) s = .next { s with ringOut := some { frame := f, judged := .untouched } }) ∧
      exec .syncMissing s = .next { s with ringOut := none }) ∧
    (s.port.lock = .acquiring →
      let relocked : State :=
        { s with port.lock := .locked, port.misses := 0, speed.counter := s.speed.timeout * 480,
                 ramp.currents := { s.gain.targets with mute := Vector.replicate 24 (-768) },
                 notices.pending.relock := s.notices.pending.relock || s.notices.enabled.relock }
      (∀ f : RingFrame, exec (.syncFound f) s = .next s) ∧
      (∀ f : RingFrame, exec (.syncBad f) s =
        .next { s with port.lock := .unlocked, port.misses := 0,
                       ringOut := some { frame := f, judged := .untouched } }) ∧
      exec .syncMissing s = .next { s with port.lock := .unlocked, port.misses := 0, ringOut := none } ∧
      (∀ (f : FrameFields) (d : Bool) (o : FrameOrder), exec (.frame f d o) s = exec (.frame f d o) relocked) ∧
      (∀ (f : FrameFields) (check : BitVec 16) (d : Bool) (o : FrameOrder),
        exec (.damagedFrame f check d o) s = exec (.damagedFrame f check d o) relocked)) ∧
    (s.port.lock = .locked →
      (∀ f : RingFrame, exec (.syncFound f) s = .next s) ∧
      (∀ (f : FrameFields) (check : BitVec 16) (d : Bool) (o : FrameOrder) (i : Instr),
        i = .frame f d o ∨ i = .damagedFrame f check d o →
        ∃ t : State, exec i s = .next t ∧ exec i { s with port.misses := 0 } = .next t ∧ t.port.misses = 0 ∧
          (t.port.lock = .locked ∨
            t = State.blocksReset t.pins t.port.address t.port.twin t.ringOut t.pending)) ∧
      (s.port.misses ≤ 2 →
        let missed : Option OutFrame → State := fun out =>
          { s.handsEmpty with port.misses := s.port.misses + 1, ringOut := out }
        (∀ f : RingFrame, exec (.syncBad f) s =
          .next ((missed (some { frame := f, judged := .untouched })).once s.port.sender.deferred)) ∧
        exec .syncMissing s = .next ((missed none).once s.port.sender.deferred)))

/-- The lock loss (R149, R142, R125, R67, R96), by a bad SYNC or a missing one: nothing is in hand after it, every channel
is STEADY on the page it was on its way to with its chain zeroed, settings, targets, currents and speeds stand, the settled
flags are evaluated anew with their notice (R144), and what the answer in hand had deferred takes effect (R154, R159). -/
def Obligations.LockLossBringsRest : Prop :=
  ∀ (s : State) (i : Instr) (out : Option OutFrame), s.pins.reset = false → s.port.lock = .locked → s.port.misses = 3 →
    (i = .syncMissing ∧ out = none ∨
      ∃ f : RingFrame, i = .syncBad f ∧ out = some { frame := f, judged := .untouched }) →
    SchedInv s → EqualiserInv s →
    ∃ t : State, exec i s = .next (t.once s.port.sender.deferred) ∧
      t.port.lock = .unlocked ∧ t.port.misses = 0 ∧ t.port.assembler = .idle ∧ t.port.sender = .quiet ∧
      t.port.address = s.port.address ∧ t.port.twin = s.port.twin ∧
      (∀ k : SourceId, t.port.held[k] = 0) ∧ (∀ c : Chan, t.port.delays[c] = { older := none, newer := none }) ∧
      (∀ k : FadeSlot, t.sched.slots[k] = none) ∧ t.sched.queue = [] ∧
      (∀ c : Chan, t.sched.switch[c] = .steady (destination s c)) ∧
      (∀ c : Chan, (∀ h ∈ t.equaliser.active[c], h = Position.zero) ∧ t.equaliser.target[c] = none ∧
        t.equaliser.active[c].length = (programOf s (destination s c) c).length) ∧
      FlagsAfter (fun _ => True) s t ∧ SettledNotice s t ∧
      t.equaliser.programs = s.equaliser.programs ∧ t.sources = s.sources ∧ t.channels = s.channels ∧
      t.gain = s.gain ∧ t.ramp = s.ramp ∧ t.speed = s.speed ∧ t.duck = s.duck ∧ t.output = s.output ∧
      t.pins = s.pins ∧ t.ringOut = out ∧ t.pending = s.pending ∧
      t.notices.enabled = s.notices.enabled ∧ t.notices.roll = s.notices.roll ∧
      (∀ k : NoticeKind, k ≠ .pageSettled →
        hasKind t.notices.pending k = hasKind s.collectingLost.notices.pending k)

/-! ### Control words and messages -/

/-- A CLEAR word (R158), as the row and as the control word a frame takes, whatever its other 30 bits: the assembler is IDLE
without notice, the sender QUIET with its words not written, and nothing else changes; where the answer it cuts belonged to
an ASSIGN_ADDRESS or a DEVICE_RESET, their effect follows at once. In a frame the word is taken as FrameTakesWord and
FrameOut say. The row is a CLEAR word taken outside a frame, and finds nothing to do where the part takes no commands (the
model's, assumption 6). -/
def Obligations.ClearWord : Prop :=
  ∀ s : State,
    (s.pins.reset = false → s.port.lock = .locked →
      (s.port.sender = .quiet → exec .clear s = .next { s with port.assembler := .idle }) ∧
      (∀ (w : Word32) (rest : List Word32), s.port.sender = .answering w rest .nothing →
        exec .clear s = .next { s with port.assembler := .idle, port.sender := .quiet }) ∧
      (∀ (w : Word32) (rest : List Word32) (n : Fin 31) (twin : Bool),
        s.port.sender = .answering w rest (.newAddress n twin) →
        exec .clear s = .next { s with port.assembler := .idle, port.sender := .quiet, port.address := n,
                                       port.twin := twin }) ∧
      (∀ (w : Word32) (rest : List Word32), s.port.sender = .answering w rest .deviceReset →
        exec .clear s = .next (State.blocksReset s.pins s.port.address s.port.twin s.ringOut s.pending))) ∧
    (∀ low : BitVec 30,
      let k := takeControlWord ((3 : BitVec 2) ++ low) s
      (k.reset = true ↔ s.port.sender.deferred = .deviceReset) ∧
      k.state = (let quiet : State := { s with port.assembler := .idle, port.sender := .quiet }
        if s.port.sender.deferred = .deviceReset then quiet else quiet.once s.port.sender.deferred)) ∧
    (s.pins.reset = true ∨ s.port.lock ≠ .locked → exec .clear s = .next s)

/-- ASSIGN_ADDRESS and DEVICE_RESET (R154, R159), and the rows by which their effect follows. Addressed, each is answered
and its effect deferred; broadcast, or when the sender leaves ANSWERING (at its own row, at a missed SYNC), the effect
follows. A broadcast DEVICE_RESET cuts whatever answer is in hand; that its row resets at once, and that it keeps the new
address where the answer it cuts is that of an ASSIGN_ADDRESS, are the model's (assumption 6). A row whose effect is not
deferred changes nothing (the model's, assumption 7). -/
def Obligations.PortCommands : Prop :=
  (∀ (s : State) (a : BitVec 5) (twin : BitVec 8), ∃ n : Fin 31, n.val = min 30 a.toNat ∧
    (∀ r : Route, Ready s r → exec (.assignAddress r a twin) s =
      .next (s.answering (if a = 31 then .clamped else .ok) 1 1 [] (.newAddress n (twin != 0)))) ∧
    (∀ r : Route, ReadyBroadcast s r → exec (.assignAddress r a twin) s =
      .next { s with port.address := n, port.twin := twin != 0 })) ∧
  (∀ (s : State) (r : Route), Ready s r → exec (.deviceReset r) s = .next (s.answering .ok 1 2 [] .deviceReset)) ∧
  (∀ (s : State) (r : Route), ReadyBroadcast s r →
    ((∀ (n : Fin 31) (twin : Bool), s.port.sender.deferred ≠ .newAddress n twin) →
      exec (.deviceReset r) s =
        .next (State.blocksReset s.pins s.port.address s.port.twin s.ringOut s.pending)) ∧
    (∀ (n : Fin 31) (twin : Bool), s.port.sender.deferred = .newAddress n twin →
      exec (.deviceReset r) s = .next (State.blocksReset s.pins n twin s.ringOut s.pending))) ∧
  (∀ (s : State) (w : Word32) (rest : List Word32) (n : Fin 31) (twin : Bool),
    s.port.sender = .answering w rest (.newAddress n twin) →
    exec .newAddressTakesEffect s = .next { s with port.sender := .quiet, port.address := n, port.twin := twin } ∧
    exec .deviceResetTakesEffect s = .next s) ∧
  (∀ (s : State) (w : Word32) (rest : List Word32), s.port.sender = .answering w rest .deviceReset →
    exec .deviceResetTakesEffect s =
      .next (State.blocksReset s.pins s.port.address s.port.twin s.ringOut s.pending) ∧
    exec .newAddressTakesEffect s = .next s ∧
    (s.pins.reset = false → s.port.lock = .locked → s.port.misses ≤ 2 →
      ∀ f : RingFrame, exec (.syncBad f) s =
        .next (State.blocksReset s.pins s.port.address s.port.twin
          (some { frame := f, judged := .untouched }) s.pending))) ∧
  (∀ s : State, s.port.sender = .quiet →
    exec .newAddressTakesEffect s = .next s ∧ exec .deviceResetTakesEffect s = .next s)

/-- Which addresses the part answers to, and the zone a zone command names (R153). -/
def Obligations.Addressing : Prop :=
  ∀ (p : RingPort) (a : BitVec 5) (zb : Bool),
    (p.twin = false → (answersTo p a = true ↔ a.toNat = p.address.val)) ∧
    (p.twin = true → (answersTo p a = true ↔
      a ≠ 31 ∧ (a.toNat = 2 * (p.address.val / 2) ∨ a.toNat = 2 * (p.address.val / 2) + 1))) ∧
    (answersTo p 31 = false) ∧
    (p.twin = true → a ≠ 31 →
      routeZone p { address := a, zoneBit := zb } = if a.toNat % 2 = 0 then .a else .b) ∧
    (p.twin = false ∨ a = 31 → routeZone p { address := a, zoneBit := zb } = if zb then .b else .a)

/-- The table of R155 on the assembler: what an IDLE, HEADER or PAYLOAD word does in each state (CLEAR is ClearWord). A
message whose last word is stored, or whose header counts none, completes (MessageIsTheRow). A broadcast ROLL_CALL header
makes its mark first (R166), on the pending set as it stands once a message it abandons has been recorded as lost (the
model's order of the two, assumption 13). -/
def Obligations.ControlWordTable : Prop :=
  ∀ (s : State) (g : Header) (n : Nat) (ws : List Payload),
    (∀ low : BitVec 30, takeControlWord ((0 : BitVec 2) ++ low) s = { state := s, reset := false }) ∧
    (∀ w : Payload,
      (s.port.assembler = .idle → takeControlWord (payloadWord w) s = { state := s, reset := false }) ∧
      (2 ≤ n → s.port.assembler = .collecting g n ws → takeControlWord (payloadWord w) s =
        { state := { s with port.assembler := .collecting g (n - 1) (ws ++ [w]) }, reset := false }) ∧
      (s.port.assembler = .collecting g 1 ws →
        takeControlWord (payloadWord w) s = completeMessage g (ws ++ [w]) s) ∧
      (2 ≤ n → s.port.assembler = .skipping n → takeControlWord (payloadWord w) s =
        { state := { s with port.assembler := .skipping (n - 1) }, reset := false }) ∧
      (s.port.assembler = .skipping 1 → takeControlWord (payloadWord w) s =
        { state := { s with port.assembler := .idle }, reset := false })) ∧
    (∀ (r : Route) (space : BitVec 4) (code count : BitVec 8) (ignored : BitVec 4),
      let word : Word32 := (1 : BitVec 2) ++ r.address ++ bit r.zoneBit ++ space ++ code ++ count ++ ignored
      let h : Header := { route := r, space := space, command := code, count := count }
      let starts : State → Turn := fun b =>
        if count = 0 then completeMessage h [] b
        else { state := { b with port.assembler := .collecting h count.toNat [] }, reset := false }
      let lost := s.collectingLost
      (r.address = 31 ∨ answersTo s.port r.address = true → ¬ callsRoll h → takeControlWord word s = starts lost) ∧
      (r.address ≠ 31 → answersTo s.port r.address = false → takeControlWord word s =
        { state := { lost with port.assembler := if count = 0 then .idle else .skipping count.toNat },
          reset := false }) ∧
      (∀ o : OutFrame, callsRoll h → s.ringOut = some o → o.judged = .intact →
        let marked : Fin 8 → State := fun b =>
          { lost with ringOut := some { o with frame.fields.roll := o.frame.fields.roll ||| (1#8 <<< b.val) } }
        (s.notices.roll = .off → takeControlWord word s = starts lost) ∧
        (∀ b : Fin 8, s.notices.roll = .whenPending b → takeControlWord word s =
          starts (if anyKind lost.notices.pending = true then marked b else lost)) ∧
        (∀ b : Fin 8, s.notices.roll = .whenClear b → takeControlWord word s =
          starts (if anyKind lost.notices.pending = true then lost else marked b))))

/-- The words of a command (R169, 12.2 to 12.4) read back as the command, whole: no bit of a field is dropped. A header and
a result word carry their fields where the tables of 12.2 have them, the result codes numbered 0 to 9. -/
def Obligations.MessageRoundTrip : Prop :=
  (∀ c : Command, sendable c = true →
    readMessage (commandCode c).1 (commandCode c).2 (payloadWords c) = .command c ∧ (payloadWords c).length ≤ 255) ∧
  (∀ (r : Route) (c : Command), sendable c = true →
    controlType (headerWord r c) = .header ∧
    readHeader (headerWord r c) = { route := r, space := (commandCode c).1, command := (commandCode c).2,
                                    count := BitVec.ofNat 8 (payloadWords c).length }) ∧
  (∀ w : Payload, controlType (payloadWord w) = .payload ∧ readPayload (payloadWord w) = w) ∧
  (∀ w : Word32, readHeader w =
    { route := { address := w.extractLsb' 25 5, zoneBit := w.getLsbD 24 }, space := w.extractLsb' 20 4,
      command := w.extractLsb' 12 8, count := w.extractLsb' 4 8 }) ∧
  (∀ (code : ResultCode) (space : BitVec 4) (command : BitVec 8) (count : Nat), count ≤ 255 →
    let w := resultWord code space command count
    [ResultCode.ok, .clamped, .unknownCommand, .badLength, .badIndex, .badOrder, .badRef, .unstable, .inUse,
      .slotConflict][(w.extractLsb' 28 4).toNat]? = some code ∧
    w.extractLsb' 24 4 = space ∧ w.extractLsb' 16 8 = command ∧ (w.extractLsb' 8 8).toNat = count ∧
    w.extractLsb' 0 8 = 0)

/-- A message of no more payload words than a header can declare (12.2) reads as UNKNOWN_COMMAND exactly where its space
and code are not in the command index, as BAD_LENGTH exactly where they are and its payload count is not the one the
command requires (R156 steps 2 and 4, R171), and else as a command of that space and code whose fields are the bits the
layouts assign, every other bit read as nothing (R170). The layouts of 12.4 are spelled out, command by command. -/
def Obligations.MessageReadingIsExact : Prop :=
  (∀ (space : BitVec 4) (code : BitVec 8) (ws : List Payload), ws.length ≤ 255 →
    (readMessage space code ws = .unknown ↔ ∀ c : Command, commandCode c ≠ (space, code)) ∧
    (readMessage space code ws = .badLength ↔
      (∃ c : Command, commandCode c = (space, code)) ∧
        requiredWords space.toNat code.toNat ws.head? ≠ some ws.length)) ∧
  (∀ (space : BitVec 4) (code : BitVec 8) (ws : List Payload) (c : Command), ws.length ≤ 255 →
    readMessage space code ws = .command c →
    commandCode c = (space, code) ∧ ws.length = (payloadWords c).length ∧ sendable c = true ∧
    ∀ (i : Nat) (w : Payload), ws[i]? = some w →
      (payloadWords c)[i]? = some ((w >>> (30 - assignedBits space.toNat code.toNat i))
        <<< (30 - assignedBits space.toNat code.toNat i))) ∧
  (∀ w v : Payload,
    readMessage 1 1 [w] = .command (.assignAddress (w.extractLsb' 25 5) (w.extractLsb' 17 8)) ∧
    readMessage 1 2 [] = .command .deviceReset ∧
    readMessage 1 3 [w] = .command (.readTable (w.extractLsb' 22 8) (w.extractLsb' 14 8)) ∧
    readMessage 2 1 [w] = .command (.setBalance (w.extractLsb' 22 8)) ∧
    readMessage 2 2 [w] = .command (.setFade (w.extractLsb' 22 8)) ∧
    readMessage 2 5 [w] = .command (.setChannelTrim (w.extractLsb' 22 8) (w.extractLsb' 12 10)) ∧
    readMessage 2 6 [w] = .command (.setChannelMute (w.extractLsb' 22 8) (w.extractLsb' 14 8)) ∧
    readMessage 3 1 [w] = .command (.setVolume (w.extractLsb' 22 8)) ∧
    readMessage 3 2 [w] = .command (.stepVolume (w.extractLsb' 22 8)) ∧
    readMessage 3 4 [w] = .command (.setZoneMute (w.extractLsb' 22 8)) ∧
    readMessage 3 5 [w] = .command (.setDuck (w.extractLsb' 22 8)) ∧
    readMessage 3 6 [w, v] = .command (.setZoneOptions
      { depth := w.extractLsb' 20 10, ceiling := w.extractLsb' 8 12, exponent := w.extractLsb' 4 4,
        mask := v.extractLsb' 22 8, speedPages := v.extractLsb' 14 8 }) ∧
    readMessage 4 1 [w] = .command
      (.setRamp (w.extractLsb' 26 4) (w.extractLsb' 16 10) (w.extractLsb' 8 8) (w.extractLsb' 0 8)) ∧
    readMessage 5 1 [w] = .command (.vehicleState (w.extractLsb' 20 10) (w.getLsbD 19)) ∧
    readMessage 5 2 [w, v] = .command (.setSpeedPolicy
      { jump := w.extractLsb' 20 10, hysteresis := w.extractLsb' 14 6, timeout := w.extractLsb' 4 10,
        fallback := v.extractLsb' 20 10 }) ∧
    readMessage 6 1 [w] = .command (.loadSource (w.extractLsb' 22 8) (w.getLsbD 21) (w.extractLsb' 16 5)) ∧
    readMessage 7 3 [w] = .command (.selectPage (w.extractLsb' 26 4)) ∧
    readMessage 8 1 [w] = .command (.setNoticeEnable
      { relock := w.getLsbD 29, speedLost := w.getLsbD 28, ctrlLost := w.getLsbD 27, clip := w.getLsbD 26,
        pageSettled := w.getLsbD 25, duckLine := w.getLsbD 24 }) ∧
    readMessage 8 2 [] = .command .statusPoll ∧ readMessage 8 3 [] = .command .rollCall ∧
    readMessage 8 4 [w] = .command (.rollCallAssign (w.extractLsb' 26 4) (w.extractLsb' 22 4)) ∧
    readMessage 8 5 [] = .command .readMeters) ∧
  (∀ ws : Vector Payload 16, ∃ entries : Vector (BitVec 12) 32,
    readMessage 2 3 ws.toList = .command (.loadBalanceCurve entries) ∧
    readMessage 2 4 ws.toList = .command (.loadFadeCurve entries) ∧
    (∀ (k : Fin 16) (i : Fin 32), i.val = 2 * k.val → entries[i] = ws[k].extractLsb' 18 12) ∧
    (∀ (k : Fin 16) (i : Fin 32), i.val = 2 * k.val + 1 → entries[i] = ws[k].extractLsb' 6 12)) ∧
  (∀ ws : Vector Payload 32, ∃ entries : Vector (BitVec 12) 64,
    readMessage 3 3 ws.toList = .command (.loadVolumeCurve entries) ∧
    (∀ (k : Fin 32) (i : Fin 64), i.val = 2 * k.val → entries[i] = ws[k].extractLsb' 18 12) ∧
    (∀ (k : Fin 32) (i : Fin 64), i.val = 2 * k.val + 1 → entries[i] = ws[k].extractLsb' 6 12)) ∧
  (∀ b0 b1 b2 a1 a2 w : Payload, readMessage 7 1 [w, b0, b1, b2, a1, a2] = .command (.loadSection (w.extractLsb' 22 8)
    { b0 := b0.extractLsb' 6 24, b1 := b1.extractLsb' 6 24, b2 := b2.extractLsb' 6 24, a1 := a1.extractLsb' 6 24,
      a2 := a2.extractLsb' 6 24 })) ∧
  (∀ (w v : Payload) (rest : List Payload),
    ((w.extractLsb' 22 8).toNat = rest.length → readMessage 5 3 (w :: rest) = .command (.loadSdvCurve (rest.map fun p =>
      { speed := p.extractLsb' 20 10, boost := p.extractLsb' 10 10, pagePresent := p.getLsbD 9,
        page := p.extractLsb' 7 2 }))) ∧
    ((w.extractLsb' 12 3).toNat = rest.length → readMessage 6 2 (w :: v :: rest) = .command (.loadChannel
      { channel := w.extractLsb' 22 8, slotPresent := w.getLsbD 21, slot := w.extractLsb' 16 5, zone := w.getLsbD 15,
        x := w.extractLsb' 7 5, y := w.extractLsb' 2 5, trim := v.extractLsb' 20 10, weight := v.extractLsb' 15 5 }
      (rest.map fun t => { source := t.extractLsb' 22 8, gain := t.extractLsb' 10 12, duck := t.getLsbD 9 }))) ∧
    ((w.extractLsb' 14 4).toNat = rest.length → readMessage 7 2 (w :: rest) = .command
      (.loadProgram (w.extractLsb' 26 4) (w.extractLsb' 18 8) (rest.map fun e => e.extractLsb' 22 8))))

/-- What a message that completes does (R156). One that reads as a command does what the row of that command does, whatever
the route and the sender: the row is the model's message that completes outside a frame (assumption 6), and
ControlWordTable and FrameTakesWord say which words of which frames complete one. A broadcast DEVICE_RESET is marked to
follow the act, at the end of the frame in hand (R159). One that does not read is answered with its refusal, or dropped if
broadcast. That a message is judged as addressed by its header's address alone, also where the part no longer answers to
it, and that its zone is settled by the twin mode at its completion, are the model's (assumption 9). -/
def Obligations.MessageIsTheRow : Prop :=
  (∀ (s : State) (h : Header) (ws : List Payload) (c : Command),
    readMessage h.space h.command ws = .command c →
    s.pins.reset = false → s.port.lock = .locked →
    (h.route.address = 31 ∨ answersTo s.port h.route.address = true) →
    let k := completeMessage h ws s
    (c ≠ .rollCall ∨ h.route.address ≠ 31 →
      .next k.finish = exec (rowOf h.route c) { s with port.assembler := .idle }) ∧
    (c = .rollCall → h.route.address = 31 → k = { state := { s with port.assembler := .idle }, reset := false }) ∧
    (k.reset = true ↔ c = .deviceReset ∧ h.route.address = 31) ∧
    (k.reset = true → k.state = { s with port.assembler := .idle })) ∧
  (∀ (s : State) (h : Header) (ws : List Payload), h.route.address ≠ 31 → s.port.sender = .quiet →
    (readMessage h.space h.command ws = .unknown → completeMessage h ws s =
      { state := ({ s with port.assembler := .idle } : State).answering .unknownCommand h.space h.command [] .nothing,
        reset := false }) ∧
    (readMessage h.space h.command ws = .badLength → completeMessage h ws s =
      { state := ({ s with port.assembler := .idle } : State).answering .badLength h.space h.command [] .nothing,
        reset := false })) ∧
  (∀ (s : State) (h : Header) (ws : List Payload) (w : Word32) (rest : List Word32) (d : Deferred),
    h.route.address ≠ 31 → s.port.sender = .answering w rest d → completeMessage h ws s =
      { state := { s with port.assembler := .idle,
                          notices.pending.ctrlLost := s.notices.pending.ctrlLost || s.notices.enabled.ctrlLost },
        reset := false }) ∧
  (∀ (s : State) (h : Header) (ws : List Payload), h.route.address = 31 →
    (readMessage h.space h.command ws = .unknown ∨ readMessage h.space h.command ws = .badLength) →
    completeMessage h ws s = { state := { s with port.assembler := .idle }, reset := false })

/-- Who is not heard: while the sender is ANSWERING an addressed command is discarded with CTRL_LOST (R156 step 1); a
command for another address, or while the ring is not LOCKED or the reset pin is held, does nothing (R153, R149, R160);
a broadcast that asks for data is dropped (R156 step 3). -/
def Obligations.CommandsNotTaken : Prop :=
  ∀ (c : Command) (r : Route) (s : State),
    (s.pins.reset = false → s.port.lock = .locked → answersTo s.port r.address = true →
      (∃ w rest d, s.port.sender = .answering w rest d) →
      exec (rowOf r c) s =
        .next { s with notices.pending.ctrlLost := s.notices.pending.ctrlLost || s.notices.enabled.ctrlLost }) ∧
    (s.pins.reset = true ∨ s.port.lock ≠ .locked ∨ (r.address ≠ 31 ∧ answersTo s.port r.address = false) →
      exec (rowOf r c) s = .next s) ∧
    (r.address = 31 → (c = .statusPoll ∨ c = .readMeters ∨ ∃ sel part, c = .readTable sel part) →
      exec (rowOf r c) s = .next s)

/-- A refused command changes nothing (00_scope, conventions; R169): with any result code but OK and CLAMPED the state is
the one before, no data words go out and nothing is deferred. -/
def Obligations.RefusedChangesNothing : Prop :=
  ∀ (c : Command) (z : Zone) (s : State), (takeCommand z s c).code ≠ .ok → (takeCommand z s c).code ≠ .clamped →
    (takeCommand z s c).state = s ∧ (takeCommand z s c).data = [] ∧ (takeCommand z s c).after = .nothing

/-- READ_TABLE (R172): a selector and part of the table is answered OK with as many data words as the table lists, and
nothing else changes; any other is refused with BAD_INDEX. The words of every selector, field by field from bit 31 down
(R33, R57, R71, R83, R98, R112, R127, R145), with 0 in every bit that is no field's, in every unused tap, entry and
breakpoint word, and in a free slot's words (R170). -/
def Obligations.ReadTable : Prop :=
  (∀ (s : State) (r : Route) (sel part : BitVec 8), Ready s r →
    let count : Option Nat :=
      match sel.toNat, part.toNat with
      | 1, 0 => some 8
      | 2, 0 => some 144
      | 3, 0 => some 192
      | 3, 1 => some 192
      | 3, 2 => some 192
      | 4, 0 => some 192
      | 5, 0 => some 33
      | 6, 0 => some 103
      | 7, 0 => some 3
      | 8, 0 => some 25
      | 9, 0 => some 16
      | 10, 0 => some (1 + s.sched.queue.length)
      | 11, 0 => some 78
      | _, _ => none
    match count with
    | some n => ∃ ws : List Word32, ws.length = n ∧ tableWords sel.toNat part.toNat s = some ws ∧
        exec (.readTable r sel part) s = .next (s.answering .ok 1 3 ws .nothing)
    | none => exec (.readTable r sel part) s = .next (s.answering .badIndex 1 3 [] .nothing)) ∧
  (∀ (s : State) (ws : List Word32), tableWords 1 0 s = some ws →
    ∀ i : SourceId, ws[i.val]? =
      some (match s.sources[i] with
        | some k => (1 : BitVec 1) ++ BitVec.ofNat 5 k.val ++ (0 : BitVec 26)
        | none => 0)) ∧
  (∀ (s : State) (ws : List Word32), tableWords 2 0 s = some ws → ∀ c : Chan,
    let r := s.channels[c]
    ws[6 * c.val]? = some (bit r.out.isSome ++ BitVec.ofNat 5 (r.out.elim 0 Fin.val) ++ bit (r.zone == .b)
      ++ BitVec.ofNat 3 r.taps.length ++ BitVec.ofInt 5 r.x ++ BitVec.ofNat 4 r.y ++ (0 : BitVec 13)) ∧
    ws[6 * c.val + 1]? = some (BitVec.ofInt 8 r.trim ++ BitVec.ofNat 5 r.weight ++ (0 : BitVec 19)) ∧
    ∀ j : Fin 4, ws[6 * c.val + 2 + j.val]? = some (match r.taps[j.val]? with
      | some t => BitVec.ofNat 3 t.source.val ++ BitVec.ofInt 11 t.gain ++ bit t.duck ++ (0 : BitVec 17)
      | none => 0)) ∧
  (∀ (s : State) (p : Fin 3) (ws : List Word32), tableWords 3 p.val s = some ws →
    ∀ (j : Fin 32) (i : SectionId), i.val = 32 * p.val + j.val →
    let r := s.equaliser.sections[i]
    ws[6 * j.val]? = some (bit r.valid ++ BitVec.ofNat 8 r.live ++ (0 : BitVec 23)) ∧
    ws[6 * j.val + 1]? = some (r.coeffs.b0 ++ (0 : BitVec 8)) ∧ ws[6 * j.val + 2]? = some (r.coeffs.b1 ++ (0 : BitVec 8)) ∧
    ws[6 * j.val + 3]? = some (r.coeffs.b2 ++ (0 : BitVec 8)) ∧ ws[6 * j.val + 4]? = some (r.coeffs.a1 ++ (0 : BitVec 8)) ∧
    ws[6 * j.val + 5]? = some (r.coeffs.a2 ++ (0 : BitVec 8))) ∧
  (∀ (s : State) (ws : List Word32), tableWords 4 0 s = some ws → ∀ (p : Page) (c : Chan),
    let prog := programOf s p c
    let entry : Nat → BitVec 7 := fun i => BitVec.ofNat 7 ((prog[i]?).elim 0 Fin.val)
    ws[2 * (24 * p.val + c.val)]? =
      some (BitVec.ofNat 3 prog.length ++ entry 0 ++ entry 1 ++ entry 2 ++ (0 : BitVec 8)) ∧
    ws[2 * (24 * p.val + c.val) + 1]? = some (entry 3 ++ entry 4 ++ entry 5 ++ (0 : BitVec 11))) ∧
  (∀ (s : State) (ws : List Word32), tableWords 5 0 s = some ws →
    let cab := s.gain.cabin
    ws[0]? = some (BitVec.ofInt 7 cab.balance ++ BitVec.ofInt 7 cab.fade ++ (0 : BitVec 18)) ∧
    ∀ (j : Fin 16) (k l : Fin 32), k.val = 2 * j.val → l.val = 2 * j.val + 1 →
      ws[1 + j.val]? = some (BitVec.ofNat 10 cab.balanceCurve[k] ++ BitVec.ofNat 10 cab.balanceCurve[l]
        ++ (0 : BitVec 12)) ∧
      ws[17 + j.val]? = some (BitVec.ofNat 10 cab.fadeCurve[k] ++ BitVec.ofNat 10 cab.fadeCurve[l]
        ++ (0 : BitVec 12))) ∧
  (∀ (s : State) (ws : List Word32), tableWords 6 0 s = some ws →
    (∀ z : Zone,
      let y := s.gain.zones.get z
      let base := if z = .a then 0 else 51
      ws[base]? = some (BitVec.ofNat 6 y.step.val ++ bit y.mute ++ bit y.commandDuck ++ bit y.mask ++ bit y.speedPages
        ++ BitVec.ofNat 4 y.exponent ++ BitVec.ofNat 2 y.userPage.val ++ BitVec.ofNat 2 y.requestedPage.val
        ++ (0 : BitVec 14)) ∧
      ws[base + 1]? = some (BitVec.ofNat 10 y.depth ++ BitVec.ofInt 11 y.ceiling ++ (0 : BitVec 11)) ∧
      (∀ (j : Fin 32) (k l : Fin 64), k.val = 2 * j.val → l.val = 2 * j.val + 1 → ws[base + 2 + j.val]? =
        some (BitVec.ofInt 11 y.curve[k] ++ BitVec.ofInt 11 y.curve[l] ++ (0 : BitVec 10))) ∧
      ws[base + 34]? = some (BitVec.ofNat 5 y.sdv.length ++ (0 : BitVec 27)) ∧
      ∀ j : Fin 16, ws[base + 35 + j.val]? = some (match y.sdv[j.val]? with
        | some p => BitVec.ofNat 9 p.speed ++ BitVec.ofInt 8 p.boost ++ bit p.page.isSome
            ++ BitVec.ofNat 2 (p.page.elim 0 Fin.val) ++ (0 : BitVec 12)
        | none => 0)) ∧
    ∃ w : Word32, ws[102]? = some w ∧ (∀ c : Chan, w.getLsbD (31 - c.val) = s.gain.mutes[c]) ∧
      w.getLsbD 7 = s.duck.level ∧ w.extractLsb' 0 7 = 0) ∧
  (∀ (s : State) (ws : List Word32), tableWords 7 0 s = some ws →
    ws = [bit s.speed.fresh ++ bit s.speed.candidate.isSome ++ BitVec.ofNat 9 s.speed.accepted
            ++ BitVec.ofNat 9 s.speed.effective ++ BitVec.ofNat 9 (s.speed.candidate.getD 0) ++ (0 : BitVec 3),
          BitVec.ofNat 17 s.speed.counter ++ (0 : BitVec 15),
          BitVec.ofNat 8 s.speed.jump ++ BitVec.ofNat 5 s.speed.hysteresis ++ BitVec.ofNat 8 s.speed.timeout
            ++ BitVec.ofNat 9 s.speed.fallback ++ (0 : BitVec 2)]) ∧
  (∀ (s : State) (ws : List Word32), tableWords 8 0 s = some ws →
    (∀ (c : Chan) (p q : Page) (i : FadeSlot) (f : Fade),
      (s.sched.switch[c] = .steady p → ws[c.val]? =
        some ((0 : BitVec 2) ++ BitVec.ofNat 2 p.val ++ (0 : BitVec 28))) ∧
      (s.sched.switch[c] = .queued p q → ws[c.val]? =
        some ((1 : BitVec 2) ++ BitVec.ofNat 2 p.val ++ BitVec.ofNat 2 q.val ++ (0 : BitVec 26))) ∧
      (s.sched.switch[c] = .fading p i → s.sched.slots[i] = some f → ws[c.val]? =
        some ((2 : BitVec 2) ++ BitVec.ofNat 2 p.val ++ BitVec.ofNat 2 f.target.val ++ BitVec.ofNat 3 i.val
          ++ bit f.next.isSome ++ BitVec.ofNat 2 (f.next.elim 0 Fin.val) ++ (0 : BitVec 20)))) ∧
    ws[24]? = some (bit s.sched.settled.a ++ bit s.sched.settled.b ++ (0 : BitVec 30))) ∧
  (∀ (s : State) (ws : List Word32), tableWords 9 0 s = some ws → ∀ i : FadeSlot,
    (s.sched.slots[i] = none → ws[2 * i.val]? = some 0 ∧ ws[2 * i.val + 1]? = some 0) ∧
    (∀ f : Fade, s.sched.slots[i] = some f →
      ws[2 * i.val]? = some ((1 : BitVec 1) ++ BitVec.ofNat 5 f.channel.val ++ BitVec.ofNat 2 f.old.val
        ++ BitVec.ofNat 2 f.target.val ++ bit f.next.isSome ++ BitVec.ofNat 2 (f.next.elim 0 Fin.val)
        ++ (0 : BitVec 19)) ∧
      ws[2 * i.val + 1]? = some (BitVec.ofNat 13 f.k ++ BitVec.ofNat 14 f.length ++ (0 : BitVec 5)))) ∧
  (∀ (s : State) (ws : List Word32), tableWords 10 0 s = some ws →
    ws[0]? = some (BitVec.ofNat 5 s.sched.queue.length ++ (0 : BitVec 27)) ∧
    ∀ (j : Nat) (c : Chan) (p q : Page), s.sched.queue[j]? = some c → s.sched.switch[c] = .queued p q →
      ws[j + 1]? = some (BitVec.ofNat 5 c.val ++ BitVec.ofNat 2 q.val ++ (0 : BitVec 25))) ∧
  (∀ (s : State) (ws : List Word32), tableWords 11 0 s = some ws →
    let t := s.gain.targets
    let u := s.ramp.currents
    (∀ c : Chan,
      ws[3 * c.val]? = some (BitVec.ofInt 11 t.user[c] ++ BitVec.ofInt 11 u.user[c] ++ (0 : BitVec 10)) ∧
      ws[3 * c.val + 1]? = some (BitVec.ofInt 8 t.speed[c] ++ BitVec.ofInt 8 u.speed[c] ++ (0 : BitVec 16)) ∧
      ws[3 * c.val + 2]? = some (BitVec.ofInt 11 t.mute[c] ++ BitVec.ofInt 11 u.mute[c] ++ (0 : BitVec 10))) ∧
    ws[72]? = some (BitVec.ofInt 11 t.duck.a ++ BitVec.ofInt 11 u.duck.a ++ (0 : BitVec 10)) ∧
    ws[73]? = some (BitVec.ofInt 11 t.duck.b ++ BitVec.ofInt 11 u.duck.b ++ (0 : BitVec 10)) ∧
    ∀ (l : Lane) (n : Nat), [Lane.user, .speed, .mute, .duck][n]? = some l → ws[74 + n]? =
      some (BitVec.ofNat 8 (s.ramp.lanes.get l).period ++ BitVec.ofNat 7 (s.ramp.lanes.get l).first
        ++ BitVec.ofNat 7 (s.ramp.lanes.get l).second ++ (0 : BitVec 10)))

/-! ### The gain plan -/

/-- R35: SET_BALANCE stores the setting clamped to -32 to 32, answers CLAMPED if it was outside, and recomputes the user
target of all 24 channels; the setting already held leaves the targets as they are. -/
def Obligations.SetBalanceStores : Prop :=
  ∀ (s : State) (v : BitVec 8),
    Completes (fun r => .setBalance r v) 2 1 s
      (fun _ => if -32 ≤ v.toInt ∧ v.toInt ≤ 32 then .ok else .clamped)
      (fun _ =>
        let cab : Cabin := { s.gain.cabin with balance := max (-32) (min 32 v.toInt) }
        { s with gain.cabin := cab, gain.targets.user :=
            Vector.ofFn fun c : Chan => userTarget cab (s.gain.zones.get s.channels[c].zone) s.channels[c] }) ∧
    (PlanInv s → -32 ≤ v.toInt → v.toInt ≤ 32 → s.gain.cabin.balance = v.toInt →
      Completes (fun r => .setBalance r v) 2 1 s (fun _ => .ok) (fun _ => s))

/-- R36: SET_FADE stores the setting clamped to -32 to 32, answers CLAMPED if it was outside, and recomputes the user
target of all 24 channels. -/
def Obligations.SetFadeStores : Prop :=
  ∀ (s : State) (v : BitVec 8),
    Completes (fun r => .setFade r v) 2 2 s
      (fun _ => if -32 ≤ v.toInt ∧ v.toInt ≤ 32 then .ok else .clamped)
      (fun _ =>
        let cab : Cabin := { s.gain.cabin with fade := max (-32) (min 32 v.toInt) }
        { s with gain.cabin := cab, gain.targets.user :=
            Vector.ofFn fun c : Chan => userTarget cab (s.gain.zones.get s.channels[c].zone) s.channels[c] })

/-- LOAD_BALANCE_CURVE and LOAD_FADE_CURVE (R37): each entry clamped to 0 to 768, the curve replaced whole, all user
targets recomputed. -/
def Obligations.LoadAttenuationCurves : Prop :=
  ∀ (s : State) (entries : Vector (BitVec 12) 32),
    let curve : Vector Nat 32 := Vector.ofFn fun k : Fin 32 => (max 0 (min 768 entries[k].toInt)).toNat
    let code : ResultCode :=
      if ∀ k : Fin 32, 0 ≤ entries[k].toInt ∧ entries[k].toInt ≤ 768 then .ok else .clamped
    Completes (fun r => .loadBalanceCurve r entries) 2 3 s (fun _ => code)
      (fun _ =>
        let cab : Cabin := { s.gain.cabin with balanceCurve := curve }
        { s with gain.cabin := cab, gain.targets.user :=
            Vector.ofFn fun c : Chan => userTarget cab (s.gain.zones.get s.channels[c].zone) s.channels[c] }) ∧
    Completes (fun r => .loadFadeCurve r entries) 2 4 s (fun _ => code)
      (fun _ =>
        let cab : Cabin := { s.gain.cabin with fadeCurve := curve }
        { s with gain.cabin := cab, gain.targets.user :=
            Vector.ofFn fun c : Chan => userTarget cab (s.gain.zones.get s.channels[c].zone) s.channels[c] })

/-- SET_CHANNEL_TRIM (R42) and SET_CHANNEL_MUTE (R73): one channel's trim or mute flag and its one target, a channel above
23 refused with BAD_INDEX. SET_ZONE_MUTE (R74) and SET_DUCK (R77): the zone's flag, and the mute targets of its channels
or its duck target. -/
def Obligations.TrimMuteAndDuck : Prop :=
  (
    ∀ (s : State) (i : BitVec 8) (trim : BitVec 10) (mute : BitVec 8),
      (24 ≤ i.toNat →
        Completes (fun r => .setChannelTrim r i trim) 2 5 s (fun _ => .badIndex) (fun _ => s) ∧
        Completes (fun r => .setChannelMute r i mute) 2 6 s (fun _ => .badIndex) (fun _ => s)) ∧
      (∀ c : Chan, i.toNat = c.val →
        Completes (fun r => .setChannelTrim r i trim) 2 5 s
          (fun _ => if -96 ≤ trim.toInt ∧ trim.toInt ≤ 96 then .ok else .clamped)
          (fun _ =>
            let rec' : ChannelRecord := { s.channels[c] with trim := max (-96) (min 96 trim.toInt) }
            { s with channels := s.channels.set c rec', gain.targets.user :=
                s.gain.targets.user.set c (userTarget s.gain.cabin (s.gain.zones.get rec'.zone) rec') }) ∧
        Completes (fun r => .setChannelMute r i mute) 2 6 s (fun _ => .ok)
          (fun _ =>
            { s with gain.mutes := s.gain.mutes.set c (mute != 0), gain.targets.mute :=
                s.gain.targets.mute.set c (muteTarget (mute != 0) (s.gain.zones.get s.channels[c].zone)) }))
  ) ∧ (
    ∀ (s : State) (v : BitVec 8),
      Completes (fun r => .setZoneMute r v) 3 4 s (fun _ => .ok)
        (fun z =>
          let zone : ZoneRecord := { s.gain.zones.get z with mute := v != 0 }
          { s with gain.zones := s.gain.zones.set z zone, gain.targets.mute :=
              Vector.ofFn fun c : Chan =>
                if s.channels[c].zone = z then (if s.gain.mutes[c] = true ∨ v ≠ 0 then -768 else 0)
                else s.gain.targets.mute[c] }) ∧
      Completes (fun r => .setDuck r v) 3 5 s (fun _ => .ok)
        (fun z =>
          let zone : ZoneRecord := { s.gain.zones.get z with commandDuck := v != 0 }
          let target : Int := if v ≠ 0 ∨ (s.duck.level = true ∧ zone.mask = true) then -(zone.depth : Int) else 0
          { s with gain.zones := s.gain.zones.set z zone, gain.targets.duck := s.gain.targets.duck.set z target })
  )

/-- SET_VOLUME (R39), STEP_VOLUME (R40) and LOAD_VOLUME_CURVE (R41): the zone's step or curve, each clamped, and the user
and speed targets of the zone's channels, of no others. -/
def Obligations.VolumeCommands : Prop :=
  ∀ (s : State) (step delta : BitVec 8) (entries : Vector (BitVec 12) 64),
    let stored : Zone → ZoneRecord → State := fun z zone =>
      { s with gain.zones := s.gain.zones.set z zone,
               gain.targets.user :=
                 zoneTargets z zone s.channels (fun y c => userTarget s.gain.cabin y c) s.gain.targets.user,
               gain.targets.speed := zoneTargets z zone s.channels speedTarget s.gain.targets.speed }
    (∃ n : Fin 64, n.val = min 63 step.toNat ∧
      Completes (fun r => .setVolume r step) 3 1 s (fun _ => if step.toNat ≤ 63 then .ok else .clamped)
        (fun z => stored z { s.gain.zones.get z with step := n })) ∧
    (∃ n : Zone → Fin 64,
      (∀ z : Zone, ((n z).val : Int) =
        max 0 (min 63 (((s.gain.zones.get z).step.val : Int) + max (-63) (min 63 delta.toInt)))) ∧
      Completes (fun r => .stepVolume r delta) 3 2 s
        (fun z =>
          if -63 ≤ delta.toInt ∧ delta.toInt ≤ 63 ∧ 0 ≤ ((s.gain.zones.get z).step.val : Int) + delta.toInt ∧
            ((s.gain.zones.get z).step.val : Int) + delta.toInt ≤ 63 then .ok else .clamped)
        (fun z => stored z { s.gain.zones.get z with step := n z })) ∧
    Completes (fun r => .loadVolumeCurve r entries) 3 3 s
      (fun _ => if ∀ k : Fin 64, -768 ≤ entries[k].toInt ∧ entries[k].toInt ≤ 96 then .ok else .clamped)
      (fun z => stored z { s.gain.zones.get z with
        curve := Vector.ofFn fun k : Fin 64 => max (-768) (min 96 entries[k].toInt) })

/-- SET_ZONE_OPTIONS (R78, R109): the options stored whole, each clamped, the zone's duck target and the speed targets of
its channels recomputed, and the requested page re-evaluated with its page requests. -/
def Obligations.SetZoneOptions : Prop :=
  ∀ (s : State) (o : ZoneOptionsWord),
    CompletesAskingPages (fun r => .setZoneOptions r o) 3 6 s
      (fun _ => if o.depth.toNat ≤ 768 ∧ -768 ≤ o.ceiling.toInt ∧ o.ceiling.toInt ≤ 96 ∧ 8 ≤ o.exponent.toNat ∧
        o.exponent.toNat ≤ 13 then .ok else .clamped)
      (fun z =>
        let opts : ZoneRecord :=
          { s.gain.zones.get z with
            depth := min 768 o.depth.toNat, ceiling := max (-768) (min 96 o.ceiling.toInt),
            exponent := max 8 (min 13 o.exponent.toNat), mask := o.mask != 0, speedPages := o.speedPages != 0 }
        let zone : ZoneRecord := { opts with requestedPage := evalRequested opts }
        { s with gain.zones := s.gain.zones.set z zone,
                 gain.targets.speed := zoneTargets z zone s.channels speedTarget s.gain.targets.speed,
                 gain.targets.duck := s.gain.targets.duck.set z (duckTarget zone s.duck.level) })

/-- R43: the balance attenuation of a channel at x; and the fade attenuation at y, as R44 forms it. -/
def Obligations.Attenuations : Prop :=
  (
    ∀ (cab : Cabin) (x : Int), -8 ≤ x → x ≤ 8 → -32 ≤ cab.balance → cab.balance ≤ 32 →
      (∀ k : Fin 32, cab.balanceCurve[k] ≤ 768) →
      let d := balanceDistance cab.balance x
      (0 < cab.balance → d = max 0 (-x)) ∧ (cab.balance < 0 → d = max 0 x) ∧ (cab.balance = 0 → d = 0) ∧
      0 ≤ d ∧ d ≤ 8 ∧
      (cab.balance = 0 ∨ d = 0 → balanceAtt cab x = 0) ∧
      (∀ k : Fin 32, cab.balance.natAbs = k.val + 1 → d ≠ 0 →
        balanceAtt cab x = ((cab.balanceCurve[k] : Int) * d + 4) / 8) ∧
      0 ≤ balanceAtt cab x ∧ balanceAtt cab x ≤ 768 ∧
      (0 < cab.balance → 0 ≤ x → balanceAtt cab x = 0) ∧ (cab.balance < 0 → x ≤ 0 → balanceAtt cab x = 0) ∧
      (∀ k : Fin 32, cab.balance.natAbs = k.val + 1 → d = 8 → balanceAtt cab x = (cab.balanceCurve[k] : Int))
  ) ∧ (
    ∀ (cab : Cabin) (y : Nat), y ≤ 15 → -32 ≤ cab.fade → cab.fade ≤ 32 → (∀ k : Fin 32, cab.fadeCurve[k] ≤ 768) →
      let d := fadeDistance cab.fade y
      (0 < cab.fade → d = 15 - (y : Int)) ∧ (cab.fade < 0 → d = (y : Int)) ∧ (cab.fade = 0 → d = 0) ∧
      (cab.fade = 0 → fadeAtt cab y = 0) ∧
      (∀ k : Fin 32, cab.fade.natAbs = k.val + 1 → fadeAtt cab y = ((cab.fadeCurve[k] : Int) * d + 7) / 15) ∧
      0 ≤ fadeAtt cab y ∧ fadeAtt cab y ≤ 768 ∧
      (d = 0 → fadeAtt cab y = 0) ∧
      (0 < cab.fade → y = 15 → fadeAtt cab y = 0) ∧ (cab.fade < 0 → y = 0 → fadeAtt cab y = 0) ∧
      (∀ k : Fin 32, cab.fade.natAbs = k.val + 1 → d = 15 → fadeAtt cab y = (cab.fadeCurve[k] : Int))
  )

/-- The user target (R45) with its full cuts (R46), and the floor and ceiling it stays within. -/
def Obligations.UserTarget : Prop :=
  ∀ (cab : Cabin) (z : ZoneRecord) (r : ChannelRecord),
    -768 ≤ userTarget cab z r ∧ userTarget cab z r ≤ 96 ∧
    (∀ k : Fin 32, cab.balance.natAbs = k.val + 1 → cab.balanceCurve[k] = 768 →
      balanceDistance cab.balance r.x = 8 → userTarget cab z r = -768) ∧
    (∀ k : Fin 32, cab.fade.natAbs = k.val + 1 → cab.fadeCurve[k] = 768 →
      fadeDistance cab.fade r.y = 15 → userTarget cab z r = -768) ∧
    ((cab.balance = 0 ∨ balanceDistance cab.balance r.x ≠ 8 ∨
        ∀ k : Fin 32, cab.balance.natAbs = k.val + 1 → cab.balanceCurve[k] ≠ 768) →
      (cab.fade = 0 ∨ fadeDistance cab.fade r.y ≠ 15 ∨
        ∀ k : Fin 32, cab.fade.natAbs = k.val + 1 → cab.fadeCurve[k] ≠ 768) →
      cab.balance.natAbs ≤ 32 → cab.fade.natAbs ≤ 32 →
      userTarget cab z r =
        max (-768) (min 96 (z.curve[z.step] - balanceAtt cab r.x - fadeAtt cab r.y + r.trim)))

/-- The speed target (R48): weighted boost, ceiling and range. -/
def Obligations.SpeedTargetUnderCeiling : Prop :=
  ∀ (z : ZoneRecord) (r : ChannelRecord), -96 ≤ z.boost → z.boost ≤ 96 → r.weight ≤ 16 →
    let w := (z.boost * (r.weight : Int) + 8) / 16
    let v := z.curve[z.step]
    (-96 ≤ w) ∧ w ≤ 96 ∧ (r.weight = 16 → w = z.boost) ∧ (r.weight = 0 → speedTarget z r = 0) ∧
    (w ≤ 0 → speedTarget z r = w) ∧ (0 < w → speedTarget z r = min w (max 0 (z.ceiling - v))) ∧
    (0 < w → z.ceiling ≤ v → speedTarget z r = 0) ∧
    (0 < speedTarget z r → v + speedTarget z r ≤ z.ceiling)

/-- The boost (R102) and the band (R103) of a rising curve at a speed: below the first breakpoint, on a segment, at or
above the last; and the page a zone requests (R105): the page of its band's breakpoint where its speed pages option is set
and that breakpoint has one, and else its user page. -/
def Obligations.SdvCurveReading : Prop :=
  (∀ (p : Breakpoint) (rest : List Breakpoint) (v : Nat), v < p.speed →
    speedsRise (p :: rest) = true → sdvBand (p :: rest) v = 0 ∧ sdvBoost (p :: rest) v = p.boost) ∧
  (∀ (before after : List Breakpoint) (p q : Breakpoint) (v : Nat),
    speedsRise (before ++ p :: q :: after) = true → p.speed ≤ v → v < q.speed →
    sdvBand (before ++ p :: q :: after) v = before.length ∧
    sdvBoost (before ++ p :: q :: after) v =
      p.boost + (q.boost - p.boost) * ((v : Int) - (p.speed : Int)) / ((q.speed : Int) - (p.speed : Int)) ∧
    min p.boost q.boost ≤ sdvBoost (before ++ p :: q :: after) v ∧
    sdvBoost (before ++ p :: q :: after) v ≤ max p.boost q.boost ∧
    (v = p.speed → sdvBoost (before ++ p :: q :: after) v = p.boost)) ∧
  (∀ (before : List Breakpoint) (p : Breakpoint) (v : Nat),
    speedsRise (before ++ [p]) = true → p.speed ≤ v →
    sdvBand (before ++ [p]) v = before.length ∧ sdvBoost (before ++ [p]) v = p.boost) ∧
  (∀ z : ZoneRecord, z.speedPages = false → evalRequested z = z.userPage) ∧
  (∀ (z : ZoneRecord) (b : Breakpoint), z.speedPages = true → z.sdv[z.band]? = some b →
    (∀ q : Page, b.page = some q → evalRequested z = q) ∧ (b.page = none → evalRequested z = z.userPage)) ∧
  (∀ (z : ZoneRecord) (v : Nat) (before : List Breakpoint) (b : Breakpoint) (after : List Breakpoint),
    z.sdv = before ++ b :: after → speedsRise z.sdv = true → z.speedPages = true →
    (before = [] ∨ b.speed ≤ v) → (∀ c ∈ after.head?, v < c.speed) →
    (z.atSpeed v).requestedPage = b.page.getD z.userPage)

/-! ### The Ramp Engine -/

/-- SET_RAMP (R65): the lane's period and steps, clamped; no current, target or count changes; a lane above 3 is refused.
The second step of the user and speed lanes is neither stored nor checked. -/
def Obligations.SetRamp : Prop :=
  ∀ (s : State) (i : BitVec 4) (p : BitVec 10) (a b : BitVec 8),
    let step : BitVec 8 → Nat := fun v => max 1 (min 96 v.toNat)
    (4 ≤ i.toNat → Completes (fun r => .setRamp r i p a b) 4 1 s (fun _ => .badIndex) (fun _ => s)) ∧
    (i.toNat = 0 → Completes (fun r => .setRamp r i p a b) 4 1 s
      (fun _ => if p.toNat ≤ 255 ∧ 1 ≤ a.toNat ∧ a.toNat ≤ 96 then .ok else .clamped)
      (fun _ => { s with ramp.lanes.user.period := min 255 p.toNat, ramp.lanes.user.first := step a })) ∧
    (i.toNat = 1 → Completes (fun r => .setRamp r i p a b) 4 1 s
      (fun _ => if p.toNat ≤ 255 ∧ 1 ≤ a.toNat ∧ a.toNat ≤ 96 then .ok else .clamped)
      (fun _ => { s with ramp.lanes.speed.period := min 255 p.toNat, ramp.lanes.speed.first := step a })) ∧
    (i.toNat = 2 → Completes (fun r => .setRamp r i p a b) 4 1 s
      (fun _ => if p.toNat ≤ 255 ∧ 1 ≤ a.toNat ∧ a.toNat ≤ 96 ∧ 1 ≤ b.toNat ∧ b.toNat ≤ 96 then .ok else .clamped)
      (fun _ => { s with ramp.lanes.mute.period := min 255 p.toNat, ramp.lanes.mute.first := step a,
                         ramp.lanes.mute.second := step b })) ∧
    (i.toNat = 3 → Completes (fun r => .setRamp r i p a b) 4 1 s
      (fun _ => if p.toNat ≤ 255 ∧ 1 ≤ a.toNat ∧ a.toNat ≤ 96 ∧ 1 ≤ b.toNat ∧ b.toNat ≤ 96 then .ok else .clamped)
      (fun _ => { s with ramp.lanes.duck.period := min 255 p.toNat, ramp.lanes.duck.first := step a,
                         ramp.lanes.duck.second := step b }))

/-- LANE_TICK (R59, R63): where the count stands at its last step, every current of the lane moves toward its target by at
most the step in use and never past it, the count is reloaded with 48 × (P + 1), and nothing else changes; where it does
not, the row finds nothing to do (the model's, assumption 7). -/
def Obligations.LaneTick : Prop :=
  ∀ s : State,
    let moved : Int → Int → Int → Int → Int := fun up down cur tgt =>
      if cur < tgt then min tgt (cur + up) else if tgt < cur then max tgt (cur - down) else cur
    (∀ l : Lane, s.pins.reset = true ∨ s.port.lock ≠ .locked ∨ (s.ramp.lanes.get l).count ≠ 1 →
      exec (.laneTick l) s = .next s) ∧
    (s.pins.reset = false → s.port.lock = .locked →
      (s.ramp.lanes.user.count = 1 → exec (.laneTick .user) s =
        .next { s with ramp.lanes.user.count := 48 * (s.ramp.lanes.user.period + 1),
                       ramp.currents.user := Vector.ofFn fun c : Chan =>
                         moved s.ramp.lanes.user.first s.ramp.lanes.user.first s.ramp.currents.user[c]
                           s.gain.targets.user[c] }) ∧
      (s.ramp.lanes.speed.count = 1 → exec (.laneTick .speed) s =
        .next { s with ramp.lanes.speed.count := 48 * (s.ramp.lanes.speed.period + 1),
                       ramp.currents.speed := Vector.ofFn fun c : Chan =>
                         moved s.ramp.lanes.speed.first s.ramp.lanes.speed.first s.ramp.currents.speed[c]
                           s.gain.targets.speed[c] }) ∧
      (s.ramp.lanes.mute.count = 1 → exec (.laneTick .mute) s =
        .next { s with ramp.lanes.mute.count := 48 * (s.ramp.lanes.mute.period + 1),
                       ramp.currents.mute := Vector.ofFn fun c : Chan =>
                         moved s.ramp.lanes.mute.second s.ramp.lanes.mute.first s.ramp.currents.mute[c]
                           s.gain.targets.mute[c] }) ∧
      (s.ramp.lanes.duck.count = 1 → exec (.laneTick .duck) s =
        .next { s with ramp.lanes.duck.count := 48 * (s.ramp.lanes.duck.period + 1),
                       ramp.currents.duck :=
                         { a := moved s.ramp.lanes.duck.second s.ramp.lanes.duck.first s.ramp.currents.duck.a
                             s.gain.targets.duck.a,
                           b := moved s.ramp.lanes.duck.second s.ramp.lanes.duck.first s.ramp.currents.duck.b
                             s.gain.targets.duck.b } }))

/-! ### The Speed Tracker -/

/-- How a valid reading m is judged (R88, R89, R90) and what accepting it does (R91). -/
def Obligations.SpeedJudging : Prop :=
  ∀ (t : SpeedTracker) (m : Nat), m ≤ 400 →
    let near : Nat → Prop := fun v => m ≤ v + t.jump ∧ v ≤ m + t.jump
    let accepted : SpeedTracker → Prop := fun u =>
      u.fresh = true ∧ u.accepted = m ∧ u.candidate = none ∧ u.counter = t.timeout * 480 ∧
      (t.effective ≤ m → u.effective = m) ∧
      (m < t.effective → t.effective ≤ m + t.hysteresis → u.effective = t.effective) ∧
      (m + t.hysteresis < t.effective → u.effective = m + t.hysteresis) ∧
      u.jump = t.jump ∧ u.hysteresis = t.hysteresis ∧ u.timeout = t.timeout ∧ u.fallback = t.fallback
    (t.fresh = false → accepted (judge m t)) ∧
    (t.fresh = true → t.candidate = none →
      (t.jump = 0 ∨ near t.accepted → accepted (judge m t)) ∧
      (t.jump ≠ 0 → ¬ near t.accepted → judge m t = { t with candidate := some m })) ∧
    (∀ k : Nat, t.fresh = true → t.candidate = some k →
      (t.jump = 0 ∨ near k ∨ near t.accepted → accepted (judge m t)) ∧
      (t.jump ≠ 0 → ¬ near k → ¬ near t.accepted → judge m t = { t with candidate := some m }))

/-- VEHICLE_STATE (R87, R92, R110): an invalid one is ignored; a valid one is clamped to 400 and judged. SET_SPEED_POLICY
(R95): the four settings clamped; in FRESH the effective speed is re-clamped and the counter reloaded, in STALE both speeds
become the new fallback. A changed effective speed is taken by the Gain Planner with its page requests. -/
def Obligations.SpeedCommands : Prop :=
  (
    ∀ (s : State) (v : BitVec 10),
      Completes (fun r => .vehicleState r v false) 5 1 s (fun _ => .ok) (fun _ => s) ∧
      CompletesAskingPages (fun r => .vehicleState r v true) 5 1 s
        (fun _ => if v.toNat ≤ 400 then .ok else .clamped)
        (fun _ => s.withTracker (judge (min 400 v.toNat) s.speed))
  ) ∧ (
    ∀ (s : State) (p : PolicyWord),
      CompletesAskingPages (fun r => .setSpeedPolicy r p) 5 2 s
        (fun _ => if p.jump.toNat ≤ 255 ∧ p.hysteresis.toNat ≤ 31 ∧ p.timeout.toNat ≤ 255 ∧ p.fallback.toNat ≤ 400
          then .ok else .clamped)
        (fun _ =>
          let h := min 31 p.hysteresis.toNat
          let t := min 255 p.timeout.toNat
          let f := min 400 p.fallback.toNat
          let policy : SpeedTracker :=
            { s.speed with jump := min 255 p.jump.toNat, hysteresis := h, timeout := t, fallback := f }
          s.withTracker
            (if s.speed.fresh = true then
              { policy with effective := min s.speed.effective (s.speed.accepted + h), counter := t * 480 }
            else { policy with accepted := f, effective := f }))
  )

/-- STALENESS_EXPIRY (R93, R94, R92): where the counter stands at its last step in FRESH, the tracker falls back, SPEED_LOST
is recorded if enabled, and a changed effective speed is taken; otherwise nothing (the model's, assumption 7). -/
def Obligations.StalenessExpiry : Prop :=
  ∀ s : State,
    (s.pins.reset = true ∨ s.port.lock ≠ .locked ∨ s.speed.fresh = false ∨ s.speed.counter ≠ 1 →
      exec .stalenessExpiry s = .next s) ∧
    (s.pins.reset = false → s.port.lock = .locked → s.speed.fresh = true → s.speed.counter = 1 →
      ∃ t : State, exec .stalenessExpiry s = .next t ∧
        MovesPages s
          { s.withTracker { s.speed with fresh := false, candidate := none, accepted := s.speed.fallback,
                                         effective := s.speed.fallback, counter := 0 } with
            notices.pending.speedLost := s.notices.pending.speedLost || s.notices.enabled.speedLost } t)

/-- LOAD_SDV_CURVE (R100, R101): 2 to 16 breakpoints, clamped, with rising speeds; the zone's boost, band, speed targets
and requested page follow. -/
def Obligations.LoadSdvCurve : Prop :=
  ∀ (s : State) (points : List BreakpointWord),
    let curve : List Breakpoint := points.map fun w =>
      { speed := min 400 w.speed.toNat, boost := max (-96) (min 96 w.boost.toInt),
        page := if w.pagePresent = true then some w.page.toFin else none }
    (points.length < 2 ∨ 16 < points.length →
      Completes (fun r => .loadSdvCurve r points) 5 3 s (fun _ => .badLength) (fun _ => s)) ∧
    (2 ≤ points.length → points.length ≤ 16 → ¬ curve.Pairwise (fun p q => p.speed < q.speed) →
      Completes (fun r => .loadSdvCurve r points) 5 3 s (fun _ => .badOrder) (fun _ => s)) ∧
    (2 ≤ points.length → points.length ≤ 16 → curve.Pairwise (fun p q => p.speed < q.speed) →
      CompletesAskingPages (fun r => .loadSdvCurve r points) 5 3 s
        (fun _ => if ∀ w ∈ points, w.speed.toNat ≤ 400 ∧ -96 ≤ w.boost.toInt ∧ w.boost.toInt ≤ 96
          then .ok else .clamped)
        (fun z =>
          let zone : ZoneRecord := ({ s.gain.zones.get z with sdv := curve } : ZoneRecord).atSpeed s.speed.effective
          { s with gain.zones := s.gain.zones.set z zone,
                   gain.targets.speed := zoneTargets z zone s.channels speedTarget s.gain.targets.speed }))

/-! ### The Duck Line Input -/

/-- DUCK_SAMPLE (R79, R81, R82): where the count stands at its last step, the pin is sampled, the deglitched level changes
at the second sample that differs from it, and a change recomputes both duck targets and records DUCK_LINE if enabled;
otherwise only the pin's level is taken (the model's, assumption 7). -/
def Obligations.DuckSample : Prop :=
  ∀ (s : State) (pin : Bool),
    (s.pins.reset = true ∨ s.port.lock ≠ .locked ∨ s.duck.count ≠ 1 →
      exec (.duckSample pin) s = .next { s with pins.duck := pin }) ∧
    (s.pins.reset = false → s.port.lock = .locked → s.duck.count = 1 →
      (pin = s.duck.level ∨ pin ≠ s.duck.previous → exec (.duckSample pin) s =
        .next { s with pins.duck := pin, duck := { count := 48, previous := pin, level := s.duck.level } }) ∧
      (pin ≠ s.duck.level → pin = s.duck.previous → exec (.duckSample pin) s =
        .next { s with pins.duck := pin, duck := { count := 48, previous := pin, level := pin },
                       gain.targets.duck := { a := duckTarget s.gain.zones.a pin, b := duckTarget s.gain.zones.b pin },
                       notices.pending.duckLine := s.notices.pending.duckLine || s.notices.enabled.duckLine }))

/-! ### Routing -/

/-- LOAD_SOURCE (R18, R19): refused for its index or for the output slot of an enabled channel; else the record is
replaced, and the held sample zeroed if the slot changed. -/
def Obligations.LoadSource : Prop :=
  ∀ (s : State) (i : BitVec 8) (present : Bool) (k : BitVec 5),
    let slot : Option AudioSlot := if present = true then some k.toFin else none
    (8 ≤ i.toNat →
      Completes (fun r => .loadSource r i present k) 6 1 s (fun _ => .badIndex) (fun _ => s)) ∧
    (i.toNat < 8 → present = true → (∃ c : Chan, s.channels[c].out = some k.toFin) →
      Completes (fun r => .loadSource r i present k) 6 1 s (fun _ => .slotConflict) (fun _ => s)) ∧
    (∀ n : SourceId, i.toNat = n.val → (present = true → ∀ c : Chan, s.channels[c].out ≠ some k.toFin) →
      Completes (fun r => .loadSource r i present k) 6 1 s (fun _ => .ok)
        (fun _ => { s with sources := s.sources.set n slot,
                           port.held := if s.sources[n] = slot then s.port.held else s.port.held.set n 0 }))

/-- LOAD_CHANNEL (R22 to R24): its refusals in their order; a load that passes stores the record with its fields clamped
(`loadRecord`, whose effect LoadChannelChanges states); and one that keeps the enabled state and the zone changes the
record and the channel's three targets, nothing else. -/
def Obligations.LoadChannelTaken : Prop :=
  ∀ (s : State) (w : ChannelWord) (taps : List TapWord),
    let slot : Option AudioSlot := if w.slotPresent = true then some w.slot.toFin else none
    let refusedWith : ResultCode → Prop := fun code =>
      Completes (fun r => .loadChannel r w taps) 6 2 s (fun _ => code) (fun _ => s)
    (4 < taps.length → refusedWith .badLength) ∧
    (taps.length ≤ 4 → 24 ≤ w.channel.toNat → refusedWith .badIndex) ∧
    (taps.length ≤ 4 → (∃ t ∈ taps, 8 ≤ t.source.toNat) → refusedWith .badIndex) ∧
    (∀ c : Chan, taps.length ≤ 4 → w.channel.toNat = c.val → (∀ t ∈ taps, t.source.toNat < 8) →
      w.slotPresent = true →
      ((∃ d : Chan, d ≠ c ∧ s.channels[d].out = some w.slot.toFin) ∨ ∃ i : SourceId, s.sources[i] = some w.slot.toFin) →
      refusedWith .slotConflict) ∧
    (∀ (c : Chan) (ts : List Tap), taps.length ≤ 4 → w.channel.toNat = c.val →
      List.Forall₂ (fun (t : TapWord) (u : Tap) => t.source.toNat = u.source.val ∧
        u.gain = max (-768) (min 0 t.gain.toInt) ∧ u.duck = t.duck) taps ts →
      (w.slotPresent = true → (∀ d : Chan, d ≠ c → s.channels[d].out ≠ some w.slot.toFin) ∧
        ∀ i : SourceId, s.sources[i] ≠ some w.slot.toFin) →
      let rec' : ChannelRecord :=
        { out := slot, zone := if w.zone = true then .b else .a, x := max (-8) (min 8 w.x.toInt),
          y := min 15 w.y.toNat, trim := max (-96) (min 96 w.trim.toInt), weight := min 16 w.weight.toNat, taps := ts }
      Completes (fun r => .loadChannel r w taps) 6 2 s
        (fun _ => if -8 ≤ w.x.toInt ∧ w.x.toInt ≤ 8 ∧ w.y.toNat ≤ 15 ∧ -96 ≤ w.trim.toInt ∧ w.trim.toInt ≤ 96 ∧
          w.weight.toNat ≤ 16 ∧ (∀ t ∈ taps, -768 ≤ t.gain.toInt ∧ t.gain.toInt ≤ 0) then .ok else .clamped)
        (fun _ => loadRecord c rec' s)) ∧
    (∀ (c : Chan) (new : ChannelRecord), s.channels[c].out.isSome = new.out.isSome → s.channels[c].zone = new.zone →
      loadRecord c new s =
        { s with channels := s.channels.set c new,
                 gain.targets.user := s.gain.targets.user.set c
                   (userTarget s.gain.cabin (s.gain.zones.get new.zone) new),
                 gain.targets.speed := s.gain.targets.speed.set c (speedTarget (s.gain.zones.get new.zone) new),
                 gain.targets.mute := s.gain.targets.mute.set c
                   (muteTarget s.gain.mutes[c] (s.gain.zones.get new.zone)) })

/-- A load that passes its checks, whatever it does to the enabled state and the zone (R25 to R27, R139 to R141): the record
and the channel's targets are new, the channel is on its way to its zone's requested page, one that the load disables is
STEADY with zero history and an empty delay, one that the load enables runs at once on that page, and one moved with its
enabled state kept takes one page request for its new zone's page. A disabled channel that was QUEUED leaves the queue, and
the slot of one that was FADING is granted to the head of the queue, or stays free (R139, R136 step 3); every other channel
keeps its switch state and its chains, and the live counts follow. The settled flags of the zones the record named and
names are evaluated anew, with their notice, where the load enables, disables or moves the channel (R144); that one load
which both moves the channel and enables or disables it evaluates them once, at its end, is the model's (assumption 14). -/
def Obligations.LoadChannelChanges : Prop :=
  ∀ (s : State) (c : Chan) (new : ChannelRecord), SchedInv s → PagesInv s → DisabledInv s →
    let t := loadRecord c new s
    t.channels = s.channels.set c new ∧
    t.gain.targets.user[c] = userTarget s.gain.cabin (s.gain.zones.get new.zone) new ∧
    t.gain.targets.speed[c] = speedTarget (s.gain.zones.get new.zone) new ∧
    t.gain.targets.mute[c] = muteTarget s.gain.mutes[c] (s.gain.zones.get new.zone) ∧
    (∀ d : Chan, d ≠ c → t.gain.targets.user[d] = s.gain.targets.user[d] ∧
      t.gain.targets.speed[d] = s.gain.targets.speed[d] ∧ t.gain.targets.mute[d] = s.gain.targets.mute[d] ∧
      t.port.delays[d] = s.port.delays[d]) ∧
    t.gain.zones = s.gain.zones ∧ t.gain.cabin = s.gain.cabin ∧ t.gain.mutes = s.gain.mutes ∧
    t.gain.targets.duck = s.gain.targets.duck ∧ t.ramp = s.ramp ∧ t.speed = s.speed ∧ t.duck = s.duck ∧
    t.output = s.output ∧ t.sources = s.sources ∧ t.port = { s.port with delays := t.port.delays } ∧ t.pins = s.pins ∧
    t.ringOut = s.ringOut ∧ t.pending = s.pending ∧ t.equaliser.programs = s.equaliser.programs ∧
    (∀ n : SectionId, (t.equaliser.sections[n]).coeffs = (s.equaliser.sections[n]).coeffs ∧
      (t.equaliser.sections[n]).valid = (s.equaliser.sections[n]).valid) ∧
    destination t c = (s.gain.zones.get new.zone).requestedPage ∧
    (new.out = none → t.sched.switch[c] = .steady (s.gain.zones.get new.zone).requestedPage ∧
      t.port.delays[c] = { older := none, newer := none } ∧ ∀ h ∈ t.equaliser.active[c], h = Position.zero) ∧
    (s.channels[c].out = none → new.out ≠ none →
      t.sched.switch[c] = .steady (s.gain.zones.get new.zone).requestedPage ∧
      t.port.delays[c] = { older := none, newer := none } ∧ ∀ h ∈ t.equaliser.active[c], h = Position.zero) ∧
    (s.channels[c].out ≠ none → new.out ≠ none → t.port.delays[c] = s.port.delays[c]) ∧
    (s.channels[c].out.isSome = new.out.isSome → s.channels[c].zone ≠ new.zone →
      let asked := pageRequest c (s.gain.zones.get new.zone).requestedPage { s with channels := s.channels.set c new }
      t.sched.switch = asked.sched.switch ∧ t.sched.slots = asked.sched.slots ∧ t.sched.queue = asked.sched.queue ∧
      t.equaliser = asked.equaliser) ∧
    (s.channels[c].out.isSome ≠ new.out.isSome →
      let page := (s.gain.zones.get new.zone).requestedPage
      let grants : Prop := (s.sched.switch[c]).slot ≠ none
      OthersStay s c grants t ∧
      (¬ grants → t.sched.slots = s.sched.slots ∧ t.sched.queue = s.sched.queue.erase c) ∧
      (∀ i : FadeSlot, (s.sched.switch[c]).slot = some i → SlotPasses s i t) ∧
      (EqualiserInv s →
        t.equaliser.active[c] = List.replicate (programOf s page c).length Position.zero ∧ t.equaliser.target[c] = none ∧
        ∀ n : SectionId, (t.equaliser.sections[n]).live + appearancesIn s n c =
          (s.equaliser.sections[n]).live + (programOf s page c).count n +
            if (s.sched.switch[c]).slot = none then 0 else headCount s n)) ∧
    FlagsAfter (fun z => (s.channels[c].out.isSome ≠ new.out.isSome ∨ s.channels[c].zone ≠ new.zone) ∧
      (z = s.channels[c].zone ∨ z = new.zone)) s t ∧
    SettledNotice s t ∧
    (∀ k : NoticeKind, k ≠ .pageSettled → hasKind t.notices.pending k = hasKind s.notices.pending k) ∧
    t.notices.enabled = s.notices.enabled ∧ t.notices.roll = s.notices.roll

/-! ### Equaliser and Page Scheduler -/

/-- LOAD_SECTION (R114, R115) and LOAD_PROGRAM (R118, R119): their refusals in order, and what they store. -/
def Obligations.LoadSectionAndProgram : Prop :=
  (∀ (s : State) (i : BitVec 8) (k : Coeffs),
    let passes : Prop := -4194304 < k.a2.toInt ∧ k.a2.toInt < 4194304 ∧
      -(4194304 + k.a2.toInt) < k.a1.toInt ∧ k.a1.toInt < 4194304 + k.a2.toInt
    (96 ≤ i.toNat → Completes (fun r => .loadSection r i k) 7 1 s (fun _ => .badIndex) (fun _ => s)) ∧
    (i.toNat < 96 → ¬ passes → Completes (fun r => .loadSection r i k) 7 1 s (fun _ => .unstable) (fun _ => s)) ∧
    (∀ n : SectionId, i.toNat = n.val → passes →
      ((s.equaliser.sections[n]).live ≠ 0 →
        Completes (fun r => .loadSection r i k) 7 1 s (fun _ => .inUse) (fun _ => s)) ∧
      ((s.equaliser.sections[n]).live = 0 →
        Completes (fun r => .loadSection r i k) 7 1 s (fun _ => .ok)
          (fun _ => { s with equaliser.sections :=
            s.equaliser.sections.set n { valid := true, coeffs := k, live := 0 } })))) ∧
  (∀ (s : State) (p : BitVec 4) (i : BitVec 8) (entries : List (BitVec 8)),
    let refusedWith : ResultCode → Prop := fun code =>
      Completes (fun r => .loadProgram r p i entries) 7 2 s (fun _ => code) (fun _ => s)
    (6 < entries.length → refusedWith .badLength) ∧
    (entries.length ≤ 6 → (4 ≤ p.toNat ∨ 24 ≤ i.toNat ∨ ∃ e ∈ entries, 96 ≤ e.toNat) → refusedWith .badIndex) ∧
    (∀ (q : Page) (c : Chan) (prog : Program), entries.length ≤ 6 → p.toNat = q.val → i.toNat = c.val →
      List.Forall₂ (fun (e : BitVec 8) (n : SectionId) => e.toNat = n.val) entries prog →
      ((∃ n ∈ prog, (s.equaliser.sections[n]).valid = false) → refusedWith .badRef) ∧
      ((∀ n ∈ prog, (s.equaliser.sections[n]).valid = true) →
        (q = activePage s.sched.switch[c] ∨ targetPage s c = some q → refusedWith .inUse) ∧
        (q ≠ activePage s.sched.switch[c] → targetPage s c ≠ some q →
          Completes (fun r => .loadProgram r p i entries) 7 2 s (fun _ => .ok)
            (fun _ => { s with equaliser.programs :=
              s.equaliser.programs.set q (s.equaliser.programs[q].set c prog) })))))

/-- SELECT_PAGE (R107): a page above 3 is refused; else the user page is stored and the requested page re-evaluated with
its page requests. -/
def Obligations.SelectPage : Prop :=
  ∀ (s : State) (p : BitVec 4),
    (4 ≤ p.toNat → Completes (fun r => .selectPage r p) 7 3 s (fun _ => .badIndex) (fun _ => s)) ∧
    (∀ q : Page, p.toNat = q.val →
      CompletesAskingPages (fun r => .selectPage r p) 7 3 s (fun _ => .ok)
        (fun z =>
          let y : ZoneRecord := { s.gain.zones.get z with userPage := q }
          { s with gain.zones := s.gain.zones.set z { y with requestedPage := evalRequested y } }))

/-- A page request (R132, R133, R134, R123), row by row of the table. -/
def Obligations.PageRequestTable : Prop :=
  ∀ (s : State) (c : Chan) (p q r : Page),
    (s.channels[c].out ≠ none →
      (s.sched.switch[c] = .steady p → r = p → pageRequest c r s = s) ∧
      (s.sched.switch[c] = .steady p → r ≠ p → ∀ i : FadeSlot, s.sched.slots[i] = none →
        (∀ j : FadeSlot, j < i → s.sched.slots[j] ≠ none) →
        let t := pageRequest c r s
        t.sched.switch = s.sched.switch.set c (.fading p i) ∧ t.sched.queue = s.sched.queue ∧
        t.sched.slots = s.sched.slots.set i
          (some { channel := c, old := p, target := r, k := 0,
                  length := 2 ^ (s.gain.zones.get s.channels[c].zone).exponent, next := none }) ∧
        t.equaliser.target =
          s.equaliser.target.set c (some (List.replicate (programOf s r c).length Position.zero)) ∧
        t.equaliser.active = s.equaliser.active ∧ t.equaliser.programs = s.equaliser.programs ∧
        (∀ n : SectionId, (t.equaliser.sections[n]).live =
            (s.equaliser.sections[n]).live + (programOf s r c).count n ∧
          (t.equaliser.sections[n]).coeffs = (s.equaliser.sections[n]).coeffs) ∧
        t.channels = s.channels ∧ t.gain = s.gain ∧ t.ramp = s.ramp ∧ t.notices = s.notices ∧ t.port = s.port) ∧
      (s.sched.switch[c] = .steady p → r ≠ p → (∀ i : FadeSlot, s.sched.slots[i] ≠ none) →
        pageRequest c r s =
          { s with sched.switch := s.sched.switch.set c (.queued p r), sched.queue := s.sched.queue ++ [c] }) ∧
      (s.sched.switch[c] = .queued p q → r = p → pageRequest c r s =
        { s with sched.switch := s.sched.switch.set c (.steady p), sched.queue := s.sched.queue.erase c }) ∧
      (s.sched.switch[c] = .queued p q → r ≠ p → pageRequest c r s =
        { s with sched.switch := s.sched.switch.set c (.queued p r) }) ∧
      (∀ (i : FadeSlot) (f : Fade), s.sched.switch[c] = .fading p i → s.sched.slots[i] = some f →
        (r = f.target → pageRequest c r s =
          { s with sched.slots := s.sched.slots.set i (some { f with next := none }) }) ∧
        (r ≠ f.target → pageRequest c r s =
          { s with sched.slots := s.sched.slots.set i (some { f with next := some r }) }))) ∧
    (s.channels[c].out = none → s.sched.switch[c] = .steady p →
      (r = p → pageRequest c r s = s) ∧
      (r ≠ p →
        let t := pageRequest c r s
        t.sched = { s.sched with switch := s.sched.switch.set c (.steady r) } ∧
        t.equaliser.active =
          s.equaliser.active.set c (List.replicate (programOf s r c).length Position.zero) ∧
        t.equaliser.target = s.equaliser.target ∧ t.equaliser.programs = s.equaliser.programs ∧
        (∀ n : SectionId, (t.equaliser.sections[n]).live =
          (s.equaliser.sections[n]).live - (programOf s p c).count n + (programOf s r c).count n) ∧
        t.channels = s.channels ∧ t.gain = s.gain ∧ t.ramp = s.ramp ∧ t.notices = s.notices ∧ t.port = s.port))

/-- FADE_COMPLETE (R135, R136, R122) and QUEUE_GRANT (R136 step 3, R134): the fade at its last step completes, its slot
goes to the head of the queue with a re-queued channel counted in, and a free slot is granted to the head. The
settled flag of the channel's zone is evaluated anew, with its notice (R144). A row that is
not due changes nothing (the model's, assumption 7). -/
def Obligations.FadeCompleteAndGrant : Prop :=
  ∀ (s : State) (i : FadeSlot),
    let kept : State → Prop := fun t =>
      (∀ j : FadeSlot, j ≠ i → t.sched.slots[j] = s.sched.slots[j]) ∧
      (∀ n : SectionId, (t.equaliser.sections[n]).coeffs = (s.equaliser.sections[n]).coeffs ∧
        (t.equaliser.sections[n]).valid = (s.equaliser.sections[n]).valid) ∧
      t.equaliser.programs = s.equaliser.programs ∧ t.channels = s.channels ∧ t.sources = s.sources ∧
      t.gain = s.gain ∧ t.ramp = s.ramp ∧ t.speed = s.speed ∧ t.port = s.port ∧ t.output = s.output ∧
      t.duck = s.duck ∧ t.pins = s.pins ∧ t.ringOut = s.ringOut ∧ t.notices.enabled = s.notices.enabled ∧
      t.notices.roll = s.notices.roll ∧ t.pending = s.pending
    let settles : State → Chan → Prop := fun t d =>
      FlagsAfter (fun z => z = s.channels[d].zone) s t ∧ SettledNotice s t ∧
      ∀ k : NoticeKind, k ≠ .pageSettled → hasKind t.notices.pending k = hasKind s.notices.pending k
    (∀ f : Fade, s.pins.reset = false → s.port.lock = .locked → s.sched.slots[i] = some f → f.k + 1 = f.length →
      SchedInv s → EqualiserInv s →
      ∃ t : State, exec (.fadeComplete i) s = .next t ∧ kept t ∧ settles t f.channel ∧
        (∀ h ∈ s.equaliser.target[f.channel], t.equaliser.active[f.channel] = h) ∧
        OthersStay s f.channel True t ∧
        (∀ n : SectionId, (t.equaliser.sections[n]).live + (programOf s f.old f.channel).count n =
          (s.equaliser.sections[n]).live +
            if s.sched.queue = [] then (f.next.map fun r => (programOf s r f.channel).count n).getD 0
            else headCount s n) ∧
        (f.next = none → t.sched.switch[f.channel] = .steady f.target ∧ t.equaliser.target[f.channel] = none) ∧
        (s.sched.queue = [] → t.sched.queue = [] ∧
          (f.next = none → t.sched.slots[i] = none) ∧
          (∀ r ∈ f.next, Starts s i f.channel f.target r t)) ∧
        (∀ (d : Chan) (rest : List Chan) (p q : Page), s.sched.queue = d :: rest → s.sched.switch[d] = .queued p q →
          Starts s i d p q t ∧
          (f.next = none → t.sched.queue = rest) ∧
          (∀ r ∈ f.next, t.sched.queue = rest ++ [f.channel] ∧ t.sched.switch[f.channel] = .queued f.target r ∧
            t.equaliser.target[f.channel] = none))) ∧
    ((s.pins.reset = true ∨ s.port.lock ≠ .locked ∨ ∀ f ∈ s.sched.slots[i], f.k + 1 ≠ f.length) →
      exec (.fadeComplete i) s = .next s) ∧
    (∀ (d : Chan) (rest : List Chan) (p q : Page), s.pins.reset = false → s.port.lock = .locked →
      s.sched.slots[i] = none → s.sched.queue = d :: rest → s.sched.switch[d] = .queued p q →
      ∃ t : State, exec (.queueGrant i) s = .next t ∧ kept t ∧ settles t d ∧ Starts s i d p q t ∧ t.sched.queue = rest ∧
        OthersStay s d False t ∧ t.equaliser.active = s.equaliser.active ∧
        ∀ n : SectionId, (t.equaliser.sections[n]).live =
          (s.equaliser.sections[n]).live + (programOf s q d).count n) ∧
    ((s.pins.reset = true ∨ s.port.lock ≠ .locked ∨ s.sched.queue = [] ∨ s.sched.slots[i] ≠ none) →
      exec (.queueGrant i) s = .next s)

/-! ### Notices and meters -/

/-- SET_NOTICE_ENABLE (R162), ROLL_CALL_ASSIGN (R165) and ROLL_CALL (R166), addressed and broadcast. The mark of a
broadcast ROLL_CALL header in its own frame is ControlWordTable's and FrameOut's; that the row, a ROLL_CALL outside a frame,
marks the frame that left last and renews its CHECK is the model's (assumptions 6 and 4). -/
def Obligations.NoticeCommands : Prop :=
  ∀ s : State,
    (∀ kinds : NoticeSet,
      Completes (fun r => .setNoticeEnable r kinds) 8 1 s (fun _ => .ok)
        (fun _ => { s with notices.enabled := kinds, notices.pending :=
          { relock := s.notices.pending.relock && kinds.relock,
            speedLost := s.notices.pending.speedLost && kinds.speedLost,
            ctrlLost := s.notices.pending.ctrlLost && kinds.ctrlLost,
            clip := s.notices.pending.clip && kinds.clip,
            pageSettled := s.notices.pending.pageSettled && kinds.pageSettled,
            duckLine := s.notices.pending.duckLine && kinds.duckLine } })) ∧
    (∀ mode b : BitVec 4,
      (3 ≤ mode.toNat ∨ (mode.toNat ≠ 0 ∧ 8 ≤ b.toNat) →
        Completes (fun r => .rollCallAssign r mode b) 8 4 s (fun _ => .badIndex) (fun _ => s)) ∧
      (mode = 0 → Completes (fun r => .rollCallAssign r mode b) 8 4 s (fun _ => .ok)
        (fun _ => { s with notices.roll := .off })) ∧
      (∀ n : Fin 8, b.toNat = n.val →
        (mode = 1 → Completes (fun r => .rollCallAssign r mode b) 8 4 s (fun _ => .ok)
          (fun _ => { s with notices.roll := .whenPending n })) ∧
        (mode = 2 → Completes (fun r => .rollCallAssign r mode b) 8 4 s (fun _ => .ok)
          (fun _ => { s with notices.roll := .whenClear n })))) ∧
    (∀ r : Route, Ready s r → exec (.rollCall r) s = .next (s.answering .ok 8 3 [] .nothing)) ∧
    (∀ (r : Route) (o : OutFrame), ReadyBroadcast s r → s.ringOut = some o → o.judged = .intact →
      o.frame.check = checkValue o.frame.fields →
      let marked : Fin 8 → State := fun b =>
        let f : FrameFields := { o.frame.fields with roll := o.frame.fields.roll ||| (1#8 <<< b.val) }
        { s with ringOut := some { o with frame := { o.frame with fields := f, check := checkValue f } } }
      (s.notices.roll = .off → exec (.rollCall r) s = .next s) ∧
      (∀ b : Fin 8, s.notices.roll = .whenPending b →
        exec (.rollCall r) s = .next (if anyKind s.notices.pending = true then marked b else s)) ∧
      (∀ b : Fin 8, s.notices.roll = .whenClear b →
        exec (.rollCall r) s = .next (if anyKind s.notices.pending = true then s else marked b)))

/-- STATUS_POLL (R164, R173) and READ_METERS (R168, R173): the data words, the highest pending code the lowest code in the
pending set and 0 where it is empty (R161), and what the command restarts. -/
def Obligations.PollAndMeters : Prop :=
  ∀ (s : State) (r : Route), Ready s r →
    (∃ w v : Word32, exec (.statusPoll r) s =
      .next (({ s with notices.pending := NoticeSet.empty } : State).answering .ok 8 2 [w, v] .nothing) ∧
      (let n := s.notices.pending
       (n = NoticeSet.empty → w.extractLsb' 29 3 = 0) ∧ (n.relock = true → w.extractLsb' 29 3 = 1) ∧
       (n.relock = false → n.speedLost = true → w.extractLsb' 29 3 = 2) ∧
       (n.relock = false → n.speedLost = false → n.ctrlLost = true → w.extractLsb' 29 3 = 3) ∧
       (n.relock = false → n.speedLost = false → n.ctrlLost = false → n.clip = true → w.extractLsb' 29 3 = 4) ∧
       (n.relock = false → n.speedLost = false → n.ctrlLost = false → n.clip = false → n.pageSettled = true →
         w.extractLsb' 29 3 = 5) ∧
       (n.relock = false → n.speedLost = false → n.ctrlLost = false → n.clip = false → n.pageSettled = false →
         n.duckLine = true → w.extractLsb' 29 3 = 6)) ∧
      w.extractLsb' 23 6 = bit s.notices.pending.relock ++ bit s.notices.pending.speedLost
        ++ bit s.notices.pending.ctrlLost ++ bit s.notices.pending.clip ++ bit s.notices.pending.pageSettled
        ++ bit s.notices.pending.duckLine ∧
      w.extractLsb' 17 6 = 1#1 ++ bit s.speed.fresh ++ bit (duckActive s.gain.zones.a s.duck.level)
        ++ bit (duckActive s.gain.zones.b s.duck.level) ++ bit s.sched.settled.a ++ bit s.sched.settled.b ∧
      (s.sched.queue.length ≤ 24 → fadingCount s ≤ 8 →
        (w.extractLsb' 13 4).toNat = fadingCount s ∧ (w.extractLsb' 8 5).toNat = s.sched.queue.length) ∧
      (s.speed.accepted ≤ 400 → s.speed.effective ≤ 400 →
        (v.extractLsb' 23 9).toNat = s.speed.accepted ∧ (v.extractLsb' 14 9).toNat = s.speed.effective)) ∧
    (∃ ws : List Word32, ws.length = 14 ∧ exec (.readMeters r) s =
      .next (({ s with output := { clips := Vector.replicate 24 0, peaks := { a := 0, b := 0 } } } : State).answering
        .ok 8 5 ws .nothing) ∧
      (MetersInv s →
        (∃ w v : Word32, ws[0]? = some w ∧ ws[1]? = some v ∧ (w.extractLsb' 8 24).toNat = s.output.peaks.a ∧
          (v.extractLsb' 8 24).toNat = s.output.peaks.b) ∧
        ∀ k : Fin 12, ∃ w : Word32, ws[k.val + 2]? = some w ∧
          (w.extractLsb' 16 16).toNat = s.output.clips[2 * k.val] ∧
          (w.extractLsb' 0 16).toNat = s.output.clips[2 * k.val + 1]))

/-! ### Frames of the sample path -/

/-- FRAME while LOCKED, with a control word that completes no message for an owner (IDLE, CLEAR, a header, a payload word in
mid-message), in every order of its acts (R146, R147, R28, R31, R32, R157, R158, R163, R166): the frame leaves intact with a
good CHECK; output slots carry the delayed samples and every other slot passes; the delays take the channels' written
samples; the answer word, the request bit, the roll-call bit and the rest of the fields are as the rules give them; and
what the answer in hand had deferred takes effect at the end, once its last word is written or a CLEAR word cuts it (R154,
R159). That any order of the acts is allowed is the model's (assumption 3), and so are ringOut (assumption 4) and that the
mark of a ROLL_CALL header which abandons a message sees the CTRL_LOST of that message (assumption 13). -/
def Obligations.FrameOut : Prop :=
  ∀ (s : State) (f : FrameFields) (duck : Bool) (order : FrameOrder), s.pins.reset = false → s.port.lock = .locked →
    HandsNothing s f.control → RoutingInv s → SchedInv s →
    let cleared : Prop := f.control.extractLsb' 30 2 = 3
    let taken := takeControlWord f.control s
    let calls : Prop := f.control.extractLsb' 30 2 = 1 ∧ callsRoll (readHeader f.control)
    let before := anyKind (if f.control.extractLsb' 30 2 = 1 then s.collectingLost else s).notices.pending
    ∃ (t : State) (o : FrameFields),
      exec (.frame f duck order) s = .next (t.once (s.port.sender.deferredIn f.control)) ∧
      t.ringOut = some { frame := { sync := 0xB5C3, fields := o, check := checkValue o }, judged := .intact } ∧
      o.control = f.control ∧
      AudioMoves s s s.channels (samplesFrom s f.slots) f o t ∧ ChannelsAfter s (samplesFrom s f.slots) t ∧
      (s.port.sender = .quiet ∨ cleared → o.answer = f.answer ∧ t.port.sender = .quiet) ∧
      (∀ w d, s.port.sender = .answering w [] d → ¬ cleared → o.answer = w ∧ t.port.sender = .quiet) ∧
      (∀ w v rest d, s.port.sender = .answering w (v :: rest) d → ¬ cleared →
        o.answer = w ∧ t.port.sender = .answering v rest d) ∧
      (∀ n : Fin 7, o.service.getLsbD n.val = f.service.getLsbD n.val) ∧
      (f.service.getLsbD 7 = true → o.service.getLsbD 7 = true) ∧
      (anyKind s.notices.pending = true → o.service.getLsbD 7 = true) ∧
      (anyKind t.notices.pending = false → o.service = f.service) ∧
      (¬ calls ∨ s.notices.roll = .off → o.roll = f.roll) ∧
      (∀ b : Fin 8, calls → s.notices.roll = .whenPending b →
        (o.roll = f.roll ∨ o.roll = f.roll ||| (1#8 <<< b.val)) ∧
        (before = true → o.roll = f.roll ||| (1#8 <<< b.val)) ∧
        (anyKind t.notices.pending = false → o.roll = f.roll)) ∧
      (∀ b : Fin 8, calls → s.notices.roll = .whenClear b →
        (o.roll = f.roll ∨ o.roll = f.roll ||| (1#8 <<< b.val)) ∧
        (before = true → o.roll = f.roll) ∧
        (anyKind t.notices.pending = false → o.roll = f.roll ||| (1#8 <<< b.val))) ∧
      (∀ i : SourceId, t.port.held[i] = if s.sources[i] = none then s.port.held[i] else (samplesFrom s f.slots)[i]) ∧
      t.port.assembler = taken.state.port.assembler ∧
      t.notices.pending.ctrlLost = taken.state.notices.pending.ctrlLost ∧
      t.notices.pending.relock = s.notices.pending.relock ∧
      t.port.lock = .locked ∧ t.port.misses = 0 ∧ t.port.address = s.port.address ∧ t.port.twin = s.port.twin ∧
      t.sources = s.sources ∧ t.channels = s.channels ∧ t.equaliser.programs = s.equaliser.programs ∧
      t.gain.cabin = s.gain.cabin ∧ t.gain.mutes = s.gain.mutes ∧ t.pins = { s.pins with duck := duck } ∧
      t.notices.enabled = s.notices.enabled ∧ t.notices.roll = s.notices.roll ∧ t.pending = s.pending

/-- How a FRAME while LOCKED takes its control word, whatever the word, in every order of its acts (R155, R157, R24): after
some of its acts, on a state `u` that agrees with the one the frame found in all that a command of an owner reads but pages,
counts, currents, meters and notices, the assembler takes the word; the answer word, if the sender was ANSWERING, is written
after it; the frame's remaining acts follow; and a device reset, broadcast or at the answer's last word or cut, takes effect
at the end of the frame (R159). Every prescaler and the duck-line sample count counts the frame, reloaded with the period
in force before the word or after it (R59, R66, R79), and a tick moves the currents of its lane by the settings and targets
before the word or after it; no other current moves. The staleness counter counts the frame before the word or after it
(R93, R97). The meters take the frame's marks and samples before the word or after it (R167, R168). Every fade of a channel
that stays enabled makes its step or arrives on its target (R135, R136), and the chains of such a channel are those that ran
(R124). The audio runs on the channel records the word leaves, of the state it finds; or, where the
word changes a source record or enables a channel, of the state it leaves (R19, R26). That any order of the acts is allowed
is the model's (assumption 3), and so are ringOut (assumption 4) and that the audio waits for such a word. -/
def Obligations.FrameTakesWord : Prop :=
  ∀ (s : State) (f : FrameFields) (duck : Bool) (order : FrameOrder), s.pins.reset = false → s.port.lock = .locked →
    RoutingInv s → PortInv s →
    let arrived : State :=
      { s with port.misses := 0, pins.duck := duck,
               ringOut := some { frame := { sync := 0xB5C3, fields := f, check := checkValue f }, judged := .intact } }
    ∃ (u v t : State) (o : FrameFields) (resets : Bool),
      let k := takeControlWord f.control u
      FrameActs arrived u ∧
      (s.port.sender = .quiet ∨ k.state.port.sender = .quiet → v = k.state ∧ resets = k.reset) ∧
      (∀ w rest d, s.port.sender ≠ .quiet → k.state.port.sender = .answering w rest d →
        let written : State :=
          { k.state with ringOut := k.state.ringOut.map fun x => { x with frame.fields.answer := w } }
        (rest = [] → resets = (k.reset || d == .deviceReset) ∧
          v = (let quiet : State := { written with port.sender := .quiet }
            if d = .deviceReset then quiet else quiet.once d)) ∧
        (∀ x xs, rest = x :: xs → resets = k.reset ∧ v = { written with port.sender := .answering x xs d })) ∧
      FrameActs v t ∧
      t.ringOut = some { frame := { sync := 0xB5C3, fields := o, check := checkValue o }, judged := .intact } ∧
      exec (.frame f duck order) s = .next
        (if resets = true then State.blocksReset t.pins t.port.address t.port.twin t.ringOut t.pending else t) ∧
      (∀ (i : SourceId) (n : AudioSlot), v.sources[i] = some n → t.port.held[i] = f.slots[n]) ∧
      (∀ l : Lane,
        (1 < (s.ramp.lanes.get l).count → (t.ramp.lanes.get l).count = (s.ramp.lanes.get l).count - 1) ∧
        ((s.ramp.lanes.get l).count = 1 → (t.ramp.lanes.get l).count = 48 * ((s.ramp.lanes.get l).period + 1) ∨
          (t.ramp.lanes.get l).count = 48 * ((t.ramp.lanes.get l).period + 1))) ∧
      (1 < s.duck.count → t.duck = { s.duck with count := s.duck.count - 1 }) ∧
      (s.duck.count = 1 → t.duck.count = 48 ∧ t.duck.previous = duck ∧
        t.duck.level = if duck = s.duck.previous then duck else s.duck.level) ∧
      (∀ l : Lane,
        (1 < (s.ramp.lanes.get l).count → t.ramp.currents.ofLane l = s.ramp.currents.ofLane l) ∧
        (((LaneCounts l s s.gain.targets u ∨ LaneCounts l s u.gain.targets u) ∧ LaneStands l v t) ∨
          (LaneStands l s u ∧ (LaneCounts l v v.gain.targets t ∨ LaneCounts l v t.gain.targets t)))) ∧
      ((u.speed = s.speed.counted ∧ t.speed = v.speed) ∨ (u.speed = s.speed ∧ t.speed = v.speed.counted)) ∧
      (v.speed = u.speed → t.speed = s.speed.counted) ∧
      (SchedInv s → FadesAfter s v.channels t) ∧
      (let audio : State → Prop := fun x =>
        let runs := frameRun s x v.channels (samplesFrom x f.slots)
        AudioMoves s x v.channels (samplesFrom x f.slots) f o t ∧
        ((Metered runs v.channels s u ∧ t.output = v.output) ∨ (u.output = s.output ∧ Metered runs v.channels v t)) ∧
        (SchedInv s → ∀ c : Chan, s.channels[c].out ≠ none → v.channels[c].out ≠ none → ChainsAfter s (runs c) c t)
       (v.sources = s.sources → (∀ c : Chan, v.channels[c].out ≠ none → s.channels[c].out ≠ none) → audio s) ∧
       (v.sources ≠ s.sources ∨ (∃ c : Chan, v.channels[c].out ≠ none ∧ s.channels[c].out = none) → audio v))

/-- What one frame of the sample path counts (R59, R60, R63, R79, R93, R135 to R137), an intact FRAME whose control word
completes no message for an owner, or a DAMAGED_FRAME (R151), while LOCKED, in every order of its acts: each prescaler, the
staleness counter, the duck-line sample count and the progress of each fade move by one; the lanes tick on their targets,
the speed lane on the old or the new ones where the staleness counter runs out in the frame, and the duck lane on the old or
the new ones where the deglitched line changes in it; the targets follow the effective speed and the line (R92, R82), with
SPEED_LOST and DUCK_LINE. Where the staleness counter does not run out in the frame (its page requests may fall before or after them),
the fades that reach their length complete in ascending slot number, each as FADE_COMPLETE does, and the settled flags of
their zones are evaluated after the last, with their notice (R144). That any order of the acts is allowed, and that the
completions of one frame are one act, are the model's (assumptions 3, 14 and 19). -/
def Obligations.FrameCounts : Prop :=
  ∀ (s : State) (f : FrameFields) (duck : Bool) (order : FrameOrder) (i : Instr) (word : Word32),
    s.pins.reset = false → s.port.lock = .locked →
    (i = .frame f duck order ∧ word = f.control ∧ HandsNothing s f.control ∨
      ∃ check : BitVec 16, check ≠ checkValue f ∧ i = .damagedFrame f check duck order ∧ word = 0) →
    SchedInv s → CountersInv s →
    ∃ t : State, exec i s = .next (t.once (s.port.sender.deferredIn word)) ∧
      LaneCounts .user s s.gain.targets t ∧ LaneCounts .mute s s.gain.targets t ∧
      (LaneCounts .speed s s.gain.targets t ∨ LaneCounts .speed s t.gain.targets t) ∧
      (LaneCounts .duck s s.gain.targets t ∨ LaneCounts .duck s t.gain.targets t) ∧
      t.gain.targets.user = s.gain.targets.user ∧ t.gain.targets.mute = s.gain.targets.mute ∧ PlanFollows s t ∧
      (t.notices.pending.speedLost = true ↔ s.notices.pending.speedLost = true ∨
        (s.notices.enabled.speedLost = true ∧ s.speed.fresh = true ∧ s.speed.counter = 1)) ∧
      (t.notices.pending.duckLine = true ↔ s.notices.pending.duckLine = true ∨
        (s.notices.enabled.duckLine = true ∧ t.duck.level ≠ s.duck.level)) ∧
      (s.speed.fresh = true → 1 < s.speed.counter → t.speed = { s.speed with counter := s.speed.counter - 1 }) ∧
      (s.speed.fresh = true → s.speed.counter = 1 → t.speed.fresh = false ∧ t.speed.counter = 0 ∧
        t.speed.accepted = s.speed.fallback ∧ t.speed.effective = s.speed.fallback) ∧
      (s.speed.fresh = false ∨ s.speed.counter = 0 → t.speed = s.speed) ∧
      (s.duck.count ≠ 1 → t.duck = { s.duck with count := s.duck.count - 1 }) ∧
      (s.duck.count = 1 → t.duck.count = 48 ∧ t.duck.previous = duck ∧
        t.duck.level = if duck = s.duck.previous then duck else s.duck.level) ∧
      (∀ (j : FadeSlot) (g : Fade), s.sched.slots[j] = some g → g.k + 1 < g.length →
        ∃ n : Option Page, t.sched.slots[j] = some { g with k := g.k + 1, next := n } ∧
          t.sched.switch[g.channel] = .fading g.old j) ∧
      (s.speed.fresh = false ∨ s.speed.counter ≠ 1 →
        (∃ v : State, execAll (completionRows s) s.fadesStepped = .next v ∧
          t.sched.switch = v.sched.switch ∧ t.sched.slots = v.sched.slots ∧ t.sched.queue = v.sched.queue ∧
          ∀ n : SectionId, (t.equaliser.sections[n]).live = (v.equaliser.sections[n]).live) ∧
        (∀ (j : FadeSlot) (g : Fade), t.sched.slots[j] = some g → g.k = 0 → t.equaliser.target[g.channel] =
          some (List.replicate (programOf s g.target g.channel).length Position.zero)) ∧
        FlagsAfter (fun z => ∃ (j : FadeSlot) (g : Fade), s.sched.slots[j] = some g ∧ g.k + 1 = g.length ∧
          s.channels[g.channel].zone = z) s t ∧
        SettledNotice s t)

/-- DAMAGED_FRAME while LOCKED, with a CHECK that is not the check value (R151, R147, R28): held samples stand in for the
sources, the control word is not read, a message in hand is dropped, with CTRL_LOST if it was being collected, the audio,
the meters, the answer and the request bit go on as in an intact frame (its counts are FrameCounts's), CHECK leaves as it
arrived, and what the answer in hand had deferred takes effect once its last word is written (R154, R159). A frame whose
CHECK is the check value is an intact one. Any order of the acts and ringOut are the model's (assumptions 3 and 4). -/
def Obligations.DamagedFrameOut : Prop :=
  (∀ (s : State) (f : FrameFields) (duck : Bool) (order : FrameOrder),
    exec (.damagedFrame f (checkValue f) duck order) s = exec (.frame f duck order) s) ∧
  (∀ (s : State) (f : FrameFields) (check : BitVec 16) (duck : Bool) (order : FrameOrder),
    s.pins.reset = false → s.port.lock = .locked → check ≠ checkValue f → RoutingInv s → SchedInv s →
    ∃ (t : State) (o : FrameFields),
      exec (.damagedFrame f check duck order) s = .next (t.once (s.port.sender.deferredIn 0)) ∧
      t.ringOut = some { frame := { sync := 0xB5C3, fields := o, check := check }, judged := .damaged } ∧
      o.control = f.control ∧ o.roll = f.roll ∧
      AudioMoves s s s.channels (samplesHeld s) f o t ∧ ChannelsAfter s (samplesHeld s) t ∧
      (s.port.sender = .quiet → o.answer = f.answer ∧ t.port.sender = .quiet) ∧
      (∀ w d, s.port.sender = .answering w [] d → o.answer = w ∧ t.port.sender = .quiet) ∧
      (∀ w v rest d, s.port.sender = .answering w (v :: rest) d →
        o.answer = w ∧ t.port.sender = .answering v rest d) ∧
      (∀ n : Fin 7, o.service.getLsbD n.val = f.service.getLsbD n.val) ∧
      (f.service.getLsbD 7 = true → o.service.getLsbD 7 = true) ∧
      (anyKind s.notices.pending = true → o.service.getLsbD 7 = true) ∧
      (anyKind t.notices.pending = false → o.service = f.service) ∧
      t.port.held = s.port.held ∧ t.port.assembler = .idle ∧
      t.notices.pending.ctrlLost = s.collectingLost.notices.pending.ctrlLost ∧
      t.notices.pending.relock = s.notices.pending.relock ∧
      t.port.lock = .locked ∧ t.port.misses = 0 ∧ t.port.address = s.port.address ∧ t.port.twin = s.port.twin ∧
      t.sources = s.sources ∧ t.channels = s.channels ∧ t.equaliser.programs = s.equaliser.programs ∧
      t.gain.cabin = s.gain.cabin ∧ t.gain.mutes = s.gain.mutes ∧ t.pins = { s.pins with duck := duck } ∧
      t.notices.enabled = s.notices.enabled ∧ t.notices.roll = s.notices.roll ∧ t.pending = s.pending)

/-! ### Sample arithmetic -/

/-- R2: the doubling table. M is the value rounded to the nearest integer, a half up, exactly when
(2 M - 1)^48 ≤ (2 × 2^23 × 2^(r/48))^48 < (2 M + 1)^48. -/
def Obligations.DoublingTable : Prop :=
  (∀ r : Fin 48, (2 * doubling r.val - 1) ^ 48 ≤ 2 ^ (24 * 48 + r.val) ∧
    (2 : Int) ^ (24 * 48 + r.val) < (2 * doubling r.val + 1) ^ 48) ∧
  (∀ q r : Fin 48, q < r → doubling q.val < doubling r.val) ∧
  doubling 0 = 8388608 ∧ doubling 24 = 11863283 ∧
  (∀ r : Fin 48, 8388608 ≤ doubling r.val ∧ doubling r.val < 16777216)

/-- Scaling (R3, R4): full cut, the steps at every other gain up to +96 on the doubling table, identity, doubling and
quadrupling, and how large a result can be; and the gains handed to it stay in range (the first law, R1). -/
def Obligations.ScalingRange : Prop :=
  (∀ (x : Sample) (g : Int),
    (g ≤ -768 → scale x g = 0) ∧
    (∀ (q : Int) (r s : Nat), -768 < g → g ≤ 96 → g = 48 * q + r → r < 48 → (s : Int) = 23 - q →
      2 ^ s * scale x g ≤ x.toInt * doubling r + 2 ^ (s - 1) ∧
      x.toInt * doubling r + 2 ^ (s - 1) < 2 ^ s * (scale x g + 1)) ∧
    (scale x 0 = x.toInt) ∧ (scale x 48 = 2 * x.toInt) ∧ (scale x 96 = 4 * x.toInt) ∧
    (g ≤ 0 → (scale x g).natAbs ≤ x.toInt.natAbs ∧ -8388608 ≤ scale x g ∧ scale x g ≤ 8388607) ∧
    (g ≤ 96 → (scale x g).natAbs ≤ 4 * x.toInt.natAbs)) ∧
  (∀ s : State, LanesInv s → RoutingInv s → ∀ c : Chan,
    (-768 ≤ netGain s.ramp.currents.user[c] s.ramp.currents.speed[c] s.ramp.currents.mute[c] ∧
      netGain s.ramp.currents.user[c] s.ramp.currents.speed[c] s.ramp.currents.mute[c] ≤ 96) ∧
    ∀ t ∈ s.channels[c].taps,
      -1536 ≤ tapGain (s.ramp.currents.duck.get s.channels[c].zone) t ∧
      tapGain (s.ramp.currents.duck.get s.channels[c].zone) t ≤ 0)

/-- The blend (R12): between the two outputs, never saturating, the new one exactly in its last frame. -/
def Obligations.BlendBetween : Prop :=
  ∀ (o n : Sample) (j len : Nat), 1 ≤ j → j ≤ len →
    blend o n j len = o.toInt + ((n.toInt - o.toInt) * (j : Int) + (len : Int) / 2) / (len : Int) ∧
    min o.toInt n.toInt ≤ blend o n j len ∧ blend o n j len ≤ max o.toInt n.toInt ∧
    saturates (blend o n j len) = false ∧ (saturate (blend o n j len)).toInt = blend o n j len ∧
    (j = len → blend o n j len = n.toInt) ∧ (o = n → blend o n j len = o.toInt)

/-- Filter sections and chains (R5, R8, R9, R10): the accumulator and its rounding, the saturation, the history a position
keeps, an empty program that passes its input, and a chain as its sections in order, each position with its own history. -/
def Obligations.FilterChains : Prop :=
  (∀ v : Int, (saturate v).toInt = (if v < -8388608 then -8388608 else if 8388607 < v then 8388607 else v) ∧
    (saturates v = true ↔ (saturate v).toInt ≠ v)) ∧
  (∀ (k : Coeffs) (h : Position) (x : Sample),
    let acc : Int := k.b0.toInt * x.toInt + k.b1.toInt * h.x1.toInt + k.b2.toInt * h.x2.toInt
      - k.a1.toInt * h.y1.toInt - k.a2.toInt * h.y2.toInt
    let v := sectionSum k h x
    let run := runChain [k] [h] x
    2 ^ 22 * v ≤ acc + 2 ^ 21 ∧ acc + 2 ^ 21 < 2 ^ 22 * (v + 1) ∧ acc.natAbs < 2 ^ 49 ∧
    run.out = saturate v ∧ run.clipped = saturates v ∧
    run.chain = [{ x1 := x, x2 := h.x1, y1 := saturate v, y2 := h.y1 }]) ∧
  (∀ (k : Coeffs) (x : Sample), (runChain [k] [Position.zero] x).out =
    saturate ((k.b0.toInt * x.toInt + 2 ^ 21) / 2 ^ 22)) ∧
  (∀ (hs : Chain) (x : Sample), runChain [] hs x = { chain := [], out := x, clipped := false }) ∧
  (∀ (ks ls : List Coeffs) (hs gs : Chain) (x : Sample), ks.length = hs.length →
    let first := runChain ks hs x
    let second := runChain ls gs first.out
    runChain (ks ++ ls) (hs ++ gs) x =
      { chain := first.chain ++ second.chain, out := second.out, clipped := first.clipped || second.clipped }) ∧
  (∀ (ks : List Coeffs) (hs : Chain) (x : Sample), (runChain ks hs x).chain.length = ks.length)

/-- A channel in one frame (R6, R10, R11, R13, R14, R29): the mix of its taps, its chain alone while
it is STEADY or QUEUED, or two chains and their blend
while it fades, then the net gain; and it is marked exactly where one of these saturates. -/
def Obligations.ChannelInOneFrame : Prop :=
  ∀ (s : State) (taken : Vector Sample 8) (c : Chan),
    let run := runChannel s s.channels s.ramp.currents taken (fadeOf s (Machine.occupied s) c) c
    let duck := s.ramp.currents.duck.get s.channels[c].zone
    let total : Int := ((s.channels[c].taps).map fun t =>
      scale taken[t.source] (if t.duck = true then t.gain + duck else t.gain)).sum
    let net := max (-768) (min 96
      (s.ramp.currents.user[c] + s.ramp.currents.speed[c] + s.ramp.currents.mute[c]))
    let old := runChain (coeffsOf s (activePage s.sched.switch[c]) c) s.equaliser.active[c] (saturate total)
    (∀ p q : Page, s.sched.switch[c] = .steady p ∨ s.sched.switch[c] = .queued p q →
      run.out = saturate (scale old.out net) ∧ run.active = old.chain ∧
      run.target = s.equaliser.target[c] ∧
      run.clipped = (saturates total || old.clipped || saturates (scale old.out net))) ∧
    (∀ (p : Page) (i : FadeSlot) (f : Fade) (h : Chain), s.sched.switch[c] = .fading p i → s.sched.slots[i] = some f →
      s.equaliser.target[c] = some h →
      let new := runChain (coeffsOf s f.target c) h (saturate total)
      let e := saturate (blend old.out new.out (f.k + 1) f.length)
      run.out = saturate (scale e net) ∧ run.active = old.chain ∧ run.target = some new.chain ∧
      (1 ≤ f.length → f.k < f.length →
        run.clipped = (saturates total || old.clipped || new.clipped || saturates (scale e net))))

/-! ### Invariants that every step keeps -/

/-- The second, ninth, eleventh (first half) and twelfth laws with the ranges of the prescalers and counters, kept by every
step: R58, R59, R62, R79, R85, R91, R162, R167. -/
def Obligations.RangesKept : Prop :=
  ∀ s t : State, step s = .next t →
    (LanesInv s → LanesInv t) ∧ (CountersInv s → CountersInv t) ∧ (SpeedInv s → SpeedInv t) ∧
    (NoticesInv s → NoticesInv t) ∧ (MetersInv s → MetersInv t)

/-- Every step leaves every target, boost, band and requested page the one its inputs give (R52, R53, R55, R105, R111). -/
def Obligations.PlanKept : Prop :=
  ∀ s t : State, PlanInv s → step s = .next t → PlanInv t

/-- Every step keeps the routing sound (R32, R18, R22, R23). -/
def Obligations.RoutingKept : Prop :=
  ∀ s t : State, RoutingInv s → step s = .next t → RoutingInv t

/-- A disabled channel stays silent (R25, R26, R30): every step keeps its delay empty and its chain at zero history. -/
def Obligations.DisabledKept : Prop :=
  ∀ s t : State, SchedInv s → DisabledInv s → step s = .next t → DisabledInv t

/-- The third to sixth and the tenth laws (R128, R129, R130, R135), kept by every step. -/
def Obligations.SchedulerKept : Prop :=
  ∀ s t : State, SchedInv s → step s = .next t → SchedInv t

/-- Every step keeps every channel on its way to its zone's requested page, and the settled flags true (R144). -/
def Obligations.PagesKept : Prop :=
  ∀ s t : State, SchedInv s → PagesInv s → step s = .next t → PagesInv t

/-- The seventh law (R120), the shapes of the chain states (R124) and of the programs (R117), kept by every step. -/
def Obligations.EqualiserKept : Prop :=
  ∀ s t : State, SchedInv s → EqualiserInv s → step s = .next t → EqualiserInv t

/-- Every step keeps the assembler and the answer sender sound (R155, R157), holds every block at its reset values while
the reset pin is held (R160), and leaves nothing in hand while the ring is not LOCKED (R148, R149, R142). -/
def Obligations.PortKept : Prop :=
  (
    ∀ s t : State, step s = .next t → (PortInv s → PortInv t) ∧ (HeldInReset s → HeldInReset t)
  ) ∧ (
    ∀ s t : State, SchedInv s → LostInv s → step s = .next t → LostInv t
  )

end
end

