-- ==== Sys2Proof/Laws/State.lean ====
section
/-! SUPPORT. What each update of the state leaves and sets, field by field: true by rfl, so that no proof unfolds a record
update. An update that is a choice (notify, resettle) leaves the rest in either branch. -/

namespace Sys2Proof.Machine

variable (s : State)


/-! ### setZone -/

@[simp] theorem setZone_pins (z : Zone) (r : ZoneRecord) : (setZone z r s).pins = s.pins := rfl
@[simp] theorem setZone_port (z : Zone) (r : ZoneRecord) : (setZone z r s).port = s.port := rfl
@[simp] theorem setZone_sources (z : Zone) (r : ZoneRecord) : (setZone z r s).sources = s.sources := rfl
@[simp] theorem setZone_channels (z : Zone) (r : ZoneRecord) : (setZone z r s).channels = s.channels := rfl
@[simp] theorem setZone_equaliser (z : Zone) (r : ZoneRecord) : (setZone z r s).equaliser = s.equaliser := rfl
@[simp] theorem setZone_sched (z : Zone) (r : ZoneRecord) : (setZone z r s).sched = s.sched := rfl
@[simp] theorem setZone_ramp (z : Zone) (r : ZoneRecord) : (setZone z r s).ramp = s.ramp := rfl
@[simp] theorem setZone_speed (z : Zone) (r : ZoneRecord) : (setZone z r s).speed = s.speed := rfl
@[simp] theorem setZone_duck (z : Zone) (r : ZoneRecord) : (setZone z r s).duck = s.duck := rfl
@[simp] theorem setZone_output (z : Zone) (r : ZoneRecord) : (setZone z r s).output = s.output := rfl
@[simp] theorem setZone_notices (z : Zone) (r : ZoneRecord) : (setZone z r s).notices = s.notices := rfl
@[simp] theorem setZone_ringOut (z : Zone) (r : ZoneRecord) : (setZone z r s).ringOut = s.ringOut := rfl
@[simp] theorem setZone_pending (z : Zone) (r : ZoneRecord) : (setZone z r s).pending = s.pending := rfl
@[simp] theorem setZone_zones (z : Zone) (r : ZoneRecord) : (setZone z r s).gain.zones = s.gain.zones.set z r := rfl
@[simp] theorem setZone_targets (z : Zone) (r : ZoneRecord) : (setZone z r s).gain.targets = s.gain.targets := rfl
@[simp] theorem setZone_cabin (z : Zone) (r : ZoneRecord) : (setZone z r s).gain.cabin = s.gain.cabin := rfl
@[simp] theorem setZone_mutes (z : Zone) (r : ZoneRecord) : (setZone z r s).gain.mutes = s.gain.mutes := rfl

/-! ### setRecord -/

@[simp] theorem setRecord_pins (c : Chan) (r : ChannelRecord) : (setRecord c r s).pins = s.pins := rfl
@[simp] theorem setRecord_port (c : Chan) (r : ChannelRecord) : (setRecord c r s).port = s.port := rfl
@[simp] theorem setRecord_sources (c : Chan) (r : ChannelRecord) : (setRecord c r s).sources = s.sources := rfl
@[simp] theorem setRecord_equaliser (c : Chan) (r : ChannelRecord) : (setRecord c r s).equaliser = s.equaliser := rfl
@[simp] theorem setRecord_sched (c : Chan) (r : ChannelRecord) : (setRecord c r s).sched = s.sched := rfl
@[simp] theorem setRecord_gain (c : Chan) (r : ChannelRecord) : (setRecord c r s).gain = s.gain := rfl
@[simp] theorem setRecord_ramp (c : Chan) (r : ChannelRecord) : (setRecord c r s).ramp = s.ramp := rfl
@[simp] theorem setRecord_speed (c : Chan) (r : ChannelRecord) : (setRecord c r s).speed = s.speed := rfl
@[simp] theorem setRecord_duck (c : Chan) (r : ChannelRecord) : (setRecord c r s).duck = s.duck := rfl
@[simp] theorem setRecord_output (c : Chan) (r : ChannelRecord) : (setRecord c r s).output = s.output := rfl
@[simp] theorem setRecord_notices (c : Chan) (r : ChannelRecord) : (setRecord c r s).notices = s.notices := rfl
@[simp] theorem setRecord_ringOut (c : Chan) (r : ChannelRecord) : (setRecord c r s).ringOut = s.ringOut := rfl
@[simp] theorem setRecord_pending (c : Chan) (r : ChannelRecord) : (setRecord c r s).pending = s.pending := rfl
@[simp] theorem setRecord_channels (c : Chan) (r : ChannelRecord) : (setRecord c r s).channels = s.channels.set c r := rfl

/-! ### setSwitch -/

@[simp] theorem setSwitch_pins (c : Chan) (w : Switch) : (setSwitch c w s).pins = s.pins := rfl
@[simp] theorem setSwitch_port (c : Chan) (w : Switch) : (setSwitch c w s).port = s.port := rfl
@[simp] theorem setSwitch_sources (c : Chan) (w : Switch) : (setSwitch c w s).sources = s.sources := rfl
@[simp] theorem setSwitch_channels (c : Chan) (w : Switch) : (setSwitch c w s).channels = s.channels := rfl
@[simp] theorem setSwitch_equaliser (c : Chan) (w : Switch) : (setSwitch c w s).equaliser = s.equaliser := rfl
@[simp] theorem setSwitch_gain (c : Chan) (w : Switch) : (setSwitch c w s).gain = s.gain := rfl
@[simp] theorem setSwitch_ramp (c : Chan) (w : Switch) : (setSwitch c w s).ramp = s.ramp := rfl
@[simp] theorem setSwitch_speed (c : Chan) (w : Switch) : (setSwitch c w s).speed = s.speed := rfl
@[simp] theorem setSwitch_duck (c : Chan) (w : Switch) : (setSwitch c w s).duck = s.duck := rfl
@[simp] theorem setSwitch_output (c : Chan) (w : Switch) : (setSwitch c w s).output = s.output := rfl
@[simp] theorem setSwitch_notices (c : Chan) (w : Switch) : (setSwitch c w s).notices = s.notices := rfl
@[simp] theorem setSwitch_ringOut (c : Chan) (w : Switch) : (setSwitch c w s).ringOut = s.ringOut := rfl
@[simp] theorem setSwitch_pending (c : Chan) (w : Switch) : (setSwitch c w s).pending = s.pending := rfl
@[simp] theorem setSwitch_switch (c : Chan) (w : Switch) : (setSwitch c w s).sched.switch = s.sched.switch.set c w := rfl
@[simp] theorem setSwitch_slots (c : Chan) (w : Switch) : (setSwitch c w s).sched.slots = s.sched.slots := rfl
@[simp] theorem setSwitch_queue (c : Chan) (w : Switch) : (setSwitch c w s).sched.queue = s.sched.queue := rfl
@[simp] theorem setSwitch_settled (c : Chan) (w : Switch) : (setSwitch c w s).sched.settled = s.sched.settled := rfl

/-! ### setSlot -/

@[simp] theorem setSlot_pins (i : FadeSlot) (f : Option Fade) : (setSlot i f s).pins = s.pins := rfl
@[simp] theorem setSlot_port (i : FadeSlot) (f : Option Fade) : (setSlot i f s).port = s.port := rfl
@[simp] theorem setSlot_sources (i : FadeSlot) (f : Option Fade) : (setSlot i f s).sources = s.sources := rfl
@[simp] theorem setSlot_channels (i : FadeSlot) (f : Option Fade) : (setSlot i f s).channels = s.channels := rfl
@[simp] theorem setSlot_equaliser (i : FadeSlot) (f : Option Fade) : (setSlot i f s).equaliser = s.equaliser := rfl
@[simp] theorem setSlot_gain (i : FadeSlot) (f : Option Fade) : (setSlot i f s).gain = s.gain := rfl
@[simp] theorem setSlot_ramp (i : FadeSlot) (f : Option Fade) : (setSlot i f s).ramp = s.ramp := rfl
@[simp] theorem setSlot_speed (i : FadeSlot) (f : Option Fade) : (setSlot i f s).speed = s.speed := rfl
@[simp] theorem setSlot_duck (i : FadeSlot) (f : Option Fade) : (setSlot i f s).duck = s.duck := rfl
@[simp] theorem setSlot_output (i : FadeSlot) (f : Option Fade) : (setSlot i f s).output = s.output := rfl
@[simp] theorem setSlot_notices (i : FadeSlot) (f : Option Fade) : (setSlot i f s).notices = s.notices := rfl
@[simp] theorem setSlot_ringOut (i : FadeSlot) (f : Option Fade) : (setSlot i f s).ringOut = s.ringOut := rfl
@[simp] theorem setSlot_pending (i : FadeSlot) (f : Option Fade) : (setSlot i f s).pending = s.pending := rfl
@[simp] theorem setSlot_slots (i : FadeSlot) (f : Option Fade) : (setSlot i f s).sched.slots = s.sched.slots.set i f := rfl
@[simp] theorem setSlot_switch (i : FadeSlot) (f : Option Fade) : (setSlot i f s).sched.switch = s.sched.switch := rfl
@[simp] theorem setSlot_queue (i : FadeSlot) (f : Option Fade) : (setSlot i f s).sched.queue = s.sched.queue := rfl
@[simp] theorem setSlot_settled (i : FadeSlot) (f : Option Fade) : (setSlot i f s).sched.settled = s.sched.settled := rfl

/-! ### setQueue -/

@[simp] theorem setQueue_pins (q : List Chan) : (setQueue q s).pins = s.pins := rfl
@[simp] theorem setQueue_port (q : List Chan) : (setQueue q s).port = s.port := rfl
@[simp] theorem setQueue_sources (q : List Chan) : (setQueue q s).sources = s.sources := rfl
@[simp] theorem setQueue_channels (q : List Chan) : (setQueue q s).channels = s.channels := rfl
@[simp] theorem setQueue_equaliser (q : List Chan) : (setQueue q s).equaliser = s.equaliser := rfl
@[simp] theorem setQueue_gain (q : List Chan) : (setQueue q s).gain = s.gain := rfl
@[simp] theorem setQueue_ramp (q : List Chan) : (setQueue q s).ramp = s.ramp := rfl
@[simp] theorem setQueue_speed (q : List Chan) : (setQueue q s).speed = s.speed := rfl
@[simp] theorem setQueue_duck (q : List Chan) : (setQueue q s).duck = s.duck := rfl
@[simp] theorem setQueue_output (q : List Chan) : (setQueue q s).output = s.output := rfl
@[simp] theorem setQueue_notices (q : List Chan) : (setQueue q s).notices = s.notices := rfl
@[simp] theorem setQueue_ringOut (q : List Chan) : (setQueue q s).ringOut = s.ringOut := rfl
@[simp] theorem setQueue_pending (q : List Chan) : (setQueue q s).pending = s.pending := rfl
@[simp] theorem setQueue_queue (q : List Chan) : (setQueue q s).sched.queue = q := rfl
@[simp] theorem setQueue_switch (q : List Chan) : (setQueue q s).sched.switch = s.sched.switch := rfl
@[simp] theorem setQueue_slots (q : List Chan) : (setQueue q s).sched.slots = s.sched.slots := rfl
@[simp] theorem setQueue_settled (q : List Chan) : (setQueue q s).sched.settled = s.sched.settled := rfl

/-! ### leaveQueue -/

@[simp] theorem leaveQueue_pins (c : Chan) : (leaveQueue c s).pins = s.pins := rfl
@[simp] theorem leaveQueue_port (c : Chan) : (leaveQueue c s).port = s.port := rfl
@[simp] theorem leaveQueue_sources (c : Chan) : (leaveQueue c s).sources = s.sources := rfl
@[simp] theorem leaveQueue_channels (c : Chan) : (leaveQueue c s).channels = s.channels := rfl
@[simp] theorem leaveQueue_equaliser (c : Chan) : (leaveQueue c s).equaliser = s.equaliser := rfl
@[simp] theorem leaveQueue_gain (c : Chan) : (leaveQueue c s).gain = s.gain := rfl
@[simp] theorem leaveQueue_ramp (c : Chan) : (leaveQueue c s).ramp = s.ramp := rfl
@[simp] theorem leaveQueue_speed (c : Chan) : (leaveQueue c s).speed = s.speed := rfl
@[simp] theorem leaveQueue_duck (c : Chan) : (leaveQueue c s).duck = s.duck := rfl
@[simp] theorem leaveQueue_output (c : Chan) : (leaveQueue c s).output = s.output := rfl
@[simp] theorem leaveQueue_notices (c : Chan) : (leaveQueue c s).notices = s.notices := rfl
@[simp] theorem leaveQueue_ringOut (c : Chan) : (leaveQueue c s).ringOut = s.ringOut := rfl
@[simp] theorem leaveQueue_pending (c : Chan) : (leaveQueue c s).pending = s.pending := rfl
@[simp] theorem leaveQueue_queue (c : Chan) : (leaveQueue c s).sched.queue = s.sched.queue.erase c := rfl
@[simp] theorem leaveQueue_switch (c : Chan) : (leaveQueue c s).sched.switch = s.sched.switch := rfl
@[simp] theorem leaveQueue_slots (c : Chan) : (leaveQueue c s).sched.slots = s.sched.slots := rfl
@[simp] theorem leaveQueue_settled (c : Chan) : (leaveQueue c s).sched.settled = s.sched.settled := rfl

/-! ### joinQueue -/

@[simp] theorem joinQueue_pins (c : Chan) : (joinQueue c s).pins = s.pins := rfl
@[simp] theorem joinQueue_port (c : Chan) : (joinQueue c s).port = s.port := rfl
@[simp] theorem joinQueue_sources (c : Chan) : (joinQueue c s).sources = s.sources := rfl
@[simp] theorem joinQueue_channels (c : Chan) : (joinQueue c s).channels = s.channels := rfl
@[simp] theorem joinQueue_equaliser (c : Chan) : (joinQueue c s).equaliser = s.equaliser := rfl
@[simp] theorem joinQueue_gain (c : Chan) : (joinQueue c s).gain = s.gain := rfl
@[simp] theorem joinQueue_ramp (c : Chan) : (joinQueue c s).ramp = s.ramp := rfl
@[simp] theorem joinQueue_speed (c : Chan) : (joinQueue c s).speed = s.speed := rfl
@[simp] theorem joinQueue_duck (c : Chan) : (joinQueue c s).duck = s.duck := rfl
@[simp] theorem joinQueue_output (c : Chan) : (joinQueue c s).output = s.output := rfl
@[simp] theorem joinQueue_notices (c : Chan) : (joinQueue c s).notices = s.notices := rfl
@[simp] theorem joinQueue_ringOut (c : Chan) : (joinQueue c s).ringOut = s.ringOut := rfl
@[simp] theorem joinQueue_pending (c : Chan) : (joinQueue c s).pending = s.pending := rfl
@[simp] theorem joinQueue_queue (c : Chan) : (joinQueue c s).sched.queue = s.sched.queue ++ [c] := rfl
@[simp] theorem joinQueue_switch (c : Chan) : (joinQueue c s).sched.switch = s.sched.switch := rfl
@[simp] theorem joinQueue_slots (c : Chan) : (joinQueue c s).sched.slots = s.sched.slots := rfl
@[simp] theorem joinQueue_settled (c : Chan) : (joinQueue c s).sched.settled = s.sched.settled := rfl

/-! ### setActiveChain -/

@[simp] theorem setActiveChain_pins (c : Chan) (h : Chain) : (setActiveChain c h s).pins = s.pins := rfl
@[simp] theorem setActiveChain_port (c : Chan) (h : Chain) : (setActiveChain c h s).port = s.port := rfl
@[simp] theorem setActiveChain_sources (c : Chan) (h : Chain) : (setActiveChain c h s).sources = s.sources := rfl
@[simp] theorem setActiveChain_channels (c : Chan) (h : Chain) : (setActiveChain c h s).channels = s.channels := rfl
@[simp] theorem setActiveChain_sched (c : Chan) (h : Chain) : (setActiveChain c h s).sched = s.sched := rfl
@[simp] theorem setActiveChain_gain (c : Chan) (h : Chain) : (setActiveChain c h s).gain = s.gain := rfl
@[simp] theorem setActiveChain_ramp (c : Chan) (h : Chain) : (setActiveChain c h s).ramp = s.ramp := rfl
@[simp] theorem setActiveChain_speed (c : Chan) (h : Chain) : (setActiveChain c h s).speed = s.speed := rfl
@[simp] theorem setActiveChain_duck (c : Chan) (h : Chain) : (setActiveChain c h s).duck = s.duck := rfl
@[simp] theorem setActiveChain_output (c : Chan) (h : Chain) : (setActiveChain c h s).output = s.output := rfl
@[simp] theorem setActiveChain_notices (c : Chan) (h : Chain) : (setActiveChain c h s).notices = s.notices := rfl
@[simp] theorem setActiveChain_ringOut (c : Chan) (h : Chain) : (setActiveChain c h s).ringOut = s.ringOut := rfl
@[simp] theorem setActiveChain_pending (c : Chan) (h : Chain) : (setActiveChain c h s).pending = s.pending := rfl
@[simp] theorem setActiveChain_active (c : Chan) (h : Chain) : (setActiveChain c h s).equaliser.active = s.equaliser.active.set c h := rfl
@[simp] theorem setActiveChain_target (c : Chan) (h : Chain) : (setActiveChain c h s).equaliser.target = s.equaliser.target := rfl
@[simp] theorem setActiveChain_programs (c : Chan) (h : Chain) : (setActiveChain c h s).equaliser.programs = s.equaliser.programs := rfl
@[simp] theorem setActiveChain_sections (c : Chan) (h : Chain) : (setActiveChain c h s).equaliser.sections = s.equaliser.sections := rfl

/-! ### setTargetChain -/

@[simp] theorem setTargetChain_pins (c : Chan) (h : Option Chain) : (setTargetChain c h s).pins = s.pins := rfl
@[simp] theorem setTargetChain_port (c : Chan) (h : Option Chain) : (setTargetChain c h s).port = s.port := rfl
@[simp] theorem setTargetChain_sources (c : Chan) (h : Option Chain) : (setTargetChain c h s).sources = s.sources := rfl
@[simp] theorem setTargetChain_channels (c : Chan) (h : Option Chain) : (setTargetChain c h s).channels = s.channels := rfl
@[simp] theorem setTargetChain_sched (c : Chan) (h : Option Chain) : (setTargetChain c h s).sched = s.sched := rfl
@[simp] theorem setTargetChain_gain (c : Chan) (h : Option Chain) : (setTargetChain c h s).gain = s.gain := rfl
@[simp] theorem setTargetChain_ramp (c : Chan) (h : Option Chain) : (setTargetChain c h s).ramp = s.ramp := rfl
@[simp] theorem setTargetChain_speed (c : Chan) (h : Option Chain) : (setTargetChain c h s).speed = s.speed := rfl
@[simp] theorem setTargetChain_duck (c : Chan) (h : Option Chain) : (setTargetChain c h s).duck = s.duck := rfl
@[simp] theorem setTargetChain_output (c : Chan) (h : Option Chain) : (setTargetChain c h s).output = s.output := rfl
@[simp] theorem setTargetChain_notices (c : Chan) (h : Option Chain) : (setTargetChain c h s).notices = s.notices := rfl
@[simp] theorem setTargetChain_ringOut (c : Chan) (h : Option Chain) : (setTargetChain c h s).ringOut = s.ringOut := rfl
@[simp] theorem setTargetChain_pending (c : Chan) (h : Option Chain) : (setTargetChain c h s).pending = s.pending := rfl
@[simp] theorem setTargetChain_target (c : Chan) (h : Option Chain) : (setTargetChain c h s).equaliser.target = s.equaliser.target.set c h := rfl
@[simp] theorem setTargetChain_active (c : Chan) (h : Option Chain) : (setTargetChain c h s).equaliser.active = s.equaliser.active := rfl
@[simp] theorem setTargetChain_programs (c : Chan) (h : Option Chain) : (setTargetChain c h s).equaliser.programs = s.equaliser.programs := rfl
@[simp] theorem setTargetChain_sections (c : Chan) (h : Option Chain) : (setTargetChain c h s).equaliser.sections = s.equaliser.sections := rfl

/-! ### addLive -/

@[simp] theorem addLive_pins (prog : Program) : (addLive prog s).pins = s.pins := by unfold addLive; rfl
@[simp] theorem addLive_port (prog : Program) : (addLive prog s).port = s.port := by unfold addLive; rfl
@[simp] theorem addLive_sources (prog : Program) : (addLive prog s).sources = s.sources := by unfold addLive; rfl
@[simp] theorem addLive_channels (prog : Program) : (addLive prog s).channels = s.channels := by unfold addLive; rfl
@[simp] theorem addLive_sched (prog : Program) : (addLive prog s).sched = s.sched := by unfold addLive; rfl
@[simp] theorem addLive_gain (prog : Program) : (addLive prog s).gain = s.gain := by unfold addLive; rfl
@[simp] theorem addLive_ramp (prog : Program) : (addLive prog s).ramp = s.ramp := by unfold addLive; rfl
@[simp] theorem addLive_speed (prog : Program) : (addLive prog s).speed = s.speed := by unfold addLive; rfl
@[simp] theorem addLive_duck (prog : Program) : (addLive prog s).duck = s.duck := by unfold addLive; rfl
@[simp] theorem addLive_output (prog : Program) : (addLive prog s).output = s.output := by unfold addLive; rfl
@[simp] theorem addLive_notices (prog : Program) : (addLive prog s).notices = s.notices := by unfold addLive; rfl
@[simp] theorem addLive_ringOut (prog : Program) : (addLive prog s).ringOut = s.ringOut := by unfold addLive; rfl
@[simp] theorem addLive_pending (prog : Program) : (addLive prog s).pending = s.pending := by unfold addLive; rfl
@[simp] theorem addLive_active (prog : Program) : (addLive prog s).equaliser.active = s.equaliser.active := by unfold addLive; rfl
@[simp] theorem addLive_target (prog : Program) : (addLive prog s).equaliser.target = s.equaliser.target := by unfold addLive; rfl
@[simp] theorem addLive_programs (prog : Program) : (addLive prog s).equaliser.programs = s.equaliser.programs := by unfold addLive; rfl

/-! ### subLive -/

@[simp] theorem subLive_pins (prog : Program) : (subLive prog s).pins = s.pins := by unfold subLive; rfl
@[simp] theorem subLive_port (prog : Program) : (subLive prog s).port = s.port := by unfold subLive; rfl
@[simp] theorem subLive_sources (prog : Program) : (subLive prog s).sources = s.sources := by unfold subLive; rfl
@[simp] theorem subLive_channels (prog : Program) : (subLive prog s).channels = s.channels := by unfold subLive; rfl
@[simp] theorem subLive_sched (prog : Program) : (subLive prog s).sched = s.sched := by unfold subLive; rfl
@[simp] theorem subLive_gain (prog : Program) : (subLive prog s).gain = s.gain := by unfold subLive; rfl
@[simp] theorem subLive_ramp (prog : Program) : (subLive prog s).ramp = s.ramp := by unfold subLive; rfl
@[simp] theorem subLive_speed (prog : Program) : (subLive prog s).speed = s.speed := by unfold subLive; rfl
@[simp] theorem subLive_duck (prog : Program) : (subLive prog s).duck = s.duck := by unfold subLive; rfl
@[simp] theorem subLive_output (prog : Program) : (subLive prog s).output = s.output := by unfold subLive; rfl
@[simp] theorem subLive_notices (prog : Program) : (subLive prog s).notices = s.notices := by unfold subLive; rfl
@[simp] theorem subLive_ringOut (prog : Program) : (subLive prog s).ringOut = s.ringOut := by unfold subLive; rfl
@[simp] theorem subLive_pending (prog : Program) : (subLive prog s).pending = s.pending := by unfold subLive; rfl
@[simp] theorem subLive_active (prog : Program) : (subLive prog s).equaliser.active = s.equaliser.active := by unfold subLive; rfl
@[simp] theorem subLive_target (prog : Program) : (subLive prog s).equaliser.target = s.equaliser.target := by unfold subLive; rfl
@[simp] theorem subLive_programs (prog : Program) : (subLive prog s).equaliser.programs = s.equaliser.programs := by unfold subLive; rfl

/-! ### zeroAllChains -/

@[simp] theorem zeroAllChains_pins : (zeroAllChains s).pins = s.pins := by unfold zeroAllChains; rfl
@[simp] theorem zeroAllChains_port : (zeroAllChains s).port = s.port := by unfold zeroAllChains; rfl
@[simp] theorem zeroAllChains_sources : (zeroAllChains s).sources = s.sources := by unfold zeroAllChains; rfl
@[simp] theorem zeroAllChains_channels : (zeroAllChains s).channels = s.channels := by unfold zeroAllChains; rfl
@[simp] theorem zeroAllChains_sched : (zeroAllChains s).sched = s.sched := by unfold zeroAllChains; rfl
@[simp] theorem zeroAllChains_gain : (zeroAllChains s).gain = s.gain := by unfold zeroAllChains; rfl
@[simp] theorem zeroAllChains_ramp : (zeroAllChains s).ramp = s.ramp := by unfold zeroAllChains; rfl
@[simp] theorem zeroAllChains_speed : (zeroAllChains s).speed = s.speed := by unfold zeroAllChains; rfl
@[simp] theorem zeroAllChains_duck : (zeroAllChains s).duck = s.duck := by unfold zeroAllChains; rfl
@[simp] theorem zeroAllChains_output : (zeroAllChains s).output = s.output := by unfold zeroAllChains; rfl
@[simp] theorem zeroAllChains_notices : (zeroAllChains s).notices = s.notices := by unfold zeroAllChains; rfl
@[simp] theorem zeroAllChains_ringOut : (zeroAllChains s).ringOut = s.ringOut := by unfold zeroAllChains; rfl
@[simp] theorem zeroAllChains_pending : (zeroAllChains s).pending = s.pending := by unfold zeroAllChains; rfl
@[simp] theorem zeroAllChains_programs : (zeroAllChains s).equaliser.programs = s.equaliser.programs := by unfold zeroAllChains; rfl
@[simp] theorem zeroAllChains_sections : (zeroAllChains s).equaliser.sections = s.equaliser.sections := by unfold zeroAllChains; rfl

/-! ### setProgram -/

@[simp] theorem setProgram_pins (p : Page) (c : Chan) (prog : Program) : (setProgram p c prog s).pins = s.pins := rfl
@[simp] theorem setProgram_port (p : Page) (c : Chan) (prog : Program) : (setProgram p c prog s).port = s.port := rfl
@[simp] theorem setProgram_sources (p : Page) (c : Chan) (prog : Program) : (setProgram p c prog s).sources = s.sources := rfl
@[simp] theorem setProgram_channels (p : Page) (c : Chan) (prog : Program) : (setProgram p c prog s).channels = s.channels := rfl
@[simp] theorem setProgram_sched (p : Page) (c : Chan) (prog : Program) : (setProgram p c prog s).sched = s.sched := rfl
@[simp] theorem setProgram_gain (p : Page) (c : Chan) (prog : Program) : (setProgram p c prog s).gain = s.gain := rfl
@[simp] theorem setProgram_ramp (p : Page) (c : Chan) (prog : Program) : (setProgram p c prog s).ramp = s.ramp := rfl
@[simp] theorem setProgram_speed (p : Page) (c : Chan) (prog : Program) : (setProgram p c prog s).speed = s.speed := rfl
@[simp] theorem setProgram_duck (p : Page) (c : Chan) (prog : Program) : (setProgram p c prog s).duck = s.duck := rfl
@[simp] theorem setProgram_output (p : Page) (c : Chan) (prog : Program) : (setProgram p c prog s).output = s.output := rfl
@[simp] theorem setProgram_notices (p : Page) (c : Chan) (prog : Program) : (setProgram p c prog s).notices = s.notices := rfl
@[simp] theorem setProgram_ringOut (p : Page) (c : Chan) (prog : Program) : (setProgram p c prog s).ringOut = s.ringOut := rfl
@[simp] theorem setProgram_pending (p : Page) (c : Chan) (prog : Program) : (setProgram p c prog s).pending = s.pending := rfl
@[simp] theorem setProgram_active (p : Page) (c : Chan) (prog : Program) : (setProgram p c prog s).equaliser.active = s.equaliser.active := rfl
@[simp] theorem setProgram_target (p : Page) (c : Chan) (prog : Program) : (setProgram p c prog s).equaliser.target = s.equaliser.target := rfl
@[simp] theorem setProgram_sections (p : Page) (c : Chan) (prog : Program) : (setProgram p c prog s).equaliser.sections = s.equaliser.sections := rfl

/-! ### recomputeUser -/

@[simp] theorem recomputeUser_pins (p : Chan → Bool) : (recomputeUser p s).pins = s.pins := by unfold recomputeUser; rfl
@[simp] theorem recomputeUser_port (p : Chan → Bool) : (recomputeUser p s).port = s.port := by unfold recomputeUser; rfl
@[simp] theorem recomputeUser_sources (p : Chan → Bool) : (recomputeUser p s).sources = s.sources := by unfold recomputeUser; rfl
@[simp] theorem recomputeUser_channels (p : Chan → Bool) : (recomputeUser p s).channels = s.channels := by unfold recomputeUser; rfl
@[simp] theorem recomputeUser_equaliser (p : Chan → Bool) : (recomputeUser p s).equaliser = s.equaliser := by unfold recomputeUser; rfl
@[simp] theorem recomputeUser_sched (p : Chan → Bool) : (recomputeUser p s).sched = s.sched := by unfold recomputeUser; rfl
@[simp] theorem recomputeUser_ramp (p : Chan → Bool) : (recomputeUser p s).ramp = s.ramp := by unfold recomputeUser; rfl
@[simp] theorem recomputeUser_speed (p : Chan → Bool) : (recomputeUser p s).speed = s.speed := by unfold recomputeUser; rfl
@[simp] theorem recomputeUser_duck (p : Chan → Bool) : (recomputeUser p s).duck = s.duck := by unfold recomputeUser; rfl
@[simp] theorem recomputeUser_output (p : Chan → Bool) : (recomputeUser p s).output = s.output := by unfold recomputeUser; rfl
@[simp] theorem recomputeUser_notices (p : Chan → Bool) : (recomputeUser p s).notices = s.notices := by unfold recomputeUser; rfl
@[simp] theorem recomputeUser_ringOut (p : Chan → Bool) : (recomputeUser p s).ringOut = s.ringOut := by unfold recomputeUser; rfl
@[simp] theorem recomputeUser_pending (p : Chan → Bool) : (recomputeUser p s).pending = s.pending := by unfold recomputeUser; rfl
@[simp] theorem recomputeUser_zones (p : Chan → Bool) : (recomputeUser p s).gain.zones = s.gain.zones := by unfold recomputeUser; rfl
@[simp] theorem recomputeUser_cabin (p : Chan → Bool) : (recomputeUser p s).gain.cabin = s.gain.cabin := by unfold recomputeUser; rfl
@[simp] theorem recomputeUser_mutes (p : Chan → Bool) : (recomputeUser p s).gain.mutes = s.gain.mutes := by unfold recomputeUser; rfl
@[simp] theorem recomputeUser_speedTargets (p : Chan → Bool) : (recomputeUser p s).gain.targets.speed = s.gain.targets.speed := by unfold recomputeUser; rfl
@[simp] theorem recomputeUser_muteTargets (p : Chan → Bool) : (recomputeUser p s).gain.targets.mute = s.gain.targets.mute := by unfold recomputeUser; rfl
@[simp] theorem recomputeUser_duckTargets (p : Chan → Bool) : (recomputeUser p s).gain.targets.duck = s.gain.targets.duck := by unfold recomputeUser; rfl

/-! ### recomputeSpeed -/

@[simp] theorem recomputeSpeed_pins (p : Chan → Bool) : (recomputeSpeed p s).pins = s.pins := by unfold recomputeSpeed; rfl
@[simp] theorem recomputeSpeed_port (p : Chan → Bool) : (recomputeSpeed p s).port = s.port := by unfold recomputeSpeed; rfl
@[simp] theorem recomputeSpeed_sources (p : Chan → Bool) : (recomputeSpeed p s).sources = s.sources := by unfold recomputeSpeed; rfl
@[simp] theorem recomputeSpeed_channels (p : Chan → Bool) : (recomputeSpeed p s).channels = s.channels := by unfold recomputeSpeed; rfl
@[simp] theorem recomputeSpeed_equaliser (p : Chan → Bool) : (recomputeSpeed p s).equaliser = s.equaliser := by unfold recomputeSpeed; rfl
@[simp] theorem recomputeSpeed_sched (p : Chan → Bool) : (recomputeSpeed p s).sched = s.sched := by unfold recomputeSpeed; rfl
@[simp] theorem recomputeSpeed_ramp (p : Chan → Bool) : (recomputeSpeed p s).ramp = s.ramp := by unfold recomputeSpeed; rfl
@[simp] theorem recomputeSpeed_speed (p : Chan → Bool) : (recomputeSpeed p s).speed = s.speed := by unfold recomputeSpeed; rfl
@[simp] theorem recomputeSpeed_duck (p : Chan → Bool) : (recomputeSpeed p s).duck = s.duck := by unfold recomputeSpeed; rfl
@[simp] theorem recomputeSpeed_output (p : Chan → Bool) : (recomputeSpeed p s).output = s.output := by unfold recomputeSpeed; rfl
@[simp] theorem recomputeSpeed_notices (p : Chan → Bool) : (recomputeSpeed p s).notices = s.notices := by unfold recomputeSpeed; rfl
@[simp] theorem recomputeSpeed_ringOut (p : Chan → Bool) : (recomputeSpeed p s).ringOut = s.ringOut := by unfold recomputeSpeed; rfl
@[simp] theorem recomputeSpeed_pending (p : Chan → Bool) : (recomputeSpeed p s).pending = s.pending := by unfold recomputeSpeed; rfl
@[simp] theorem recomputeSpeed_zones (p : Chan → Bool) : (recomputeSpeed p s).gain.zones = s.gain.zones := by unfold recomputeSpeed; rfl
@[simp] theorem recomputeSpeed_cabin (p : Chan → Bool) : (recomputeSpeed p s).gain.cabin = s.gain.cabin := by unfold recomputeSpeed; rfl
@[simp] theorem recomputeSpeed_mutes (p : Chan → Bool) : (recomputeSpeed p s).gain.mutes = s.gain.mutes := by unfold recomputeSpeed; rfl
@[simp] theorem recomputeSpeed_userTargets (p : Chan → Bool) : (recomputeSpeed p s).gain.targets.user = s.gain.targets.user := by unfold recomputeSpeed; rfl
@[simp] theorem recomputeSpeed_muteTargets (p : Chan → Bool) : (recomputeSpeed p s).gain.targets.mute = s.gain.targets.mute := by unfold recomputeSpeed; rfl
@[simp] theorem recomputeSpeed_duckTargets (p : Chan → Bool) : (recomputeSpeed p s).gain.targets.duck = s.gain.targets.duck := by unfold recomputeSpeed; rfl

/-! ### recomputeMute -/

@[simp] theorem recomputeMute_pins (p : Chan → Bool) : (recomputeMute p s).pins = s.pins := by unfold recomputeMute; rfl
@[simp] theorem recomputeMute_port (p : Chan → Bool) : (recomputeMute p s).port = s.port := by unfold recomputeMute; rfl
@[simp] theorem recomputeMute_sources (p : Chan → Bool) : (recomputeMute p s).sources = s.sources := by unfold recomputeMute; rfl
@[simp] theorem recomputeMute_channels (p : Chan → Bool) : (recomputeMute p s).channels = s.channels := by unfold recomputeMute; rfl
@[simp] theorem recomputeMute_equaliser (p : Chan → Bool) : (recomputeMute p s).equaliser = s.equaliser := by unfold recomputeMute; rfl
@[simp] theorem recomputeMute_sched (p : Chan → Bool) : (recomputeMute p s).sched = s.sched := by unfold recomputeMute; rfl
@[simp] theorem recomputeMute_ramp (p : Chan → Bool) : (recomputeMute p s).ramp = s.ramp := by unfold recomputeMute; rfl
@[simp] theorem recomputeMute_speed (p : Chan → Bool) : (recomputeMute p s).speed = s.speed := by unfold recomputeMute; rfl
@[simp] theorem recomputeMute_duck (p : Chan → Bool) : (recomputeMute p s).duck = s.duck := by unfold recomputeMute; rfl
@[simp] theorem recomputeMute_output (p : Chan → Bool) : (recomputeMute p s).output = s.output := by unfold recomputeMute; rfl
@[simp] theorem recomputeMute_notices (p : Chan → Bool) : (recomputeMute p s).notices = s.notices := by unfold recomputeMute; rfl
@[simp] theorem recomputeMute_ringOut (p : Chan → Bool) : (recomputeMute p s).ringOut = s.ringOut := by unfold recomputeMute; rfl
@[simp] theorem recomputeMute_pending (p : Chan → Bool) : (recomputeMute p s).pending = s.pending := by unfold recomputeMute; rfl
@[simp] theorem recomputeMute_zones (p : Chan → Bool) : (recomputeMute p s).gain.zones = s.gain.zones := by unfold recomputeMute; rfl
@[simp] theorem recomputeMute_cabin (p : Chan → Bool) : (recomputeMute p s).gain.cabin = s.gain.cabin := by unfold recomputeMute; rfl
@[simp] theorem recomputeMute_mutes (p : Chan → Bool) : (recomputeMute p s).gain.mutes = s.gain.mutes := by unfold recomputeMute; rfl
@[simp] theorem recomputeMute_userTargets (p : Chan → Bool) : (recomputeMute p s).gain.targets.user = s.gain.targets.user := by unfold recomputeMute; rfl
@[simp] theorem recomputeMute_speedTargets (p : Chan → Bool) : (recomputeMute p s).gain.targets.speed = s.gain.targets.speed := by unfold recomputeMute; rfl
@[simp] theorem recomputeMute_duckTargets (p : Chan → Bool) : (recomputeMute p s).gain.targets.duck = s.gain.targets.duck := by unfold recomputeMute; rfl

/-! ### recomputeDuck -/

@[simp] theorem recomputeDuck_pins (z : Zone) : (recomputeDuck z s).pins = s.pins := by unfold recomputeDuck; rfl
@[simp] theorem recomputeDuck_port (z : Zone) : (recomputeDuck z s).port = s.port := by unfold recomputeDuck; rfl
@[simp] theorem recomputeDuck_sources (z : Zone) : (recomputeDuck z s).sources = s.sources := by unfold recomputeDuck; rfl
@[simp] theorem recomputeDuck_channels (z : Zone) : (recomputeDuck z s).channels = s.channels := by unfold recomputeDuck; rfl
@[simp] theorem recomputeDuck_equaliser (z : Zone) : (recomputeDuck z s).equaliser = s.equaliser := by unfold recomputeDuck; rfl
@[simp] theorem recomputeDuck_sched (z : Zone) : (recomputeDuck z s).sched = s.sched := by unfold recomputeDuck; rfl
@[simp] theorem recomputeDuck_ramp (z : Zone) : (recomputeDuck z s).ramp = s.ramp := by unfold recomputeDuck; rfl
@[simp] theorem recomputeDuck_speed (z : Zone) : (recomputeDuck z s).speed = s.speed := by unfold recomputeDuck; rfl
@[simp] theorem recomputeDuck_duck (z : Zone) : (recomputeDuck z s).duck = s.duck := by unfold recomputeDuck; rfl
@[simp] theorem recomputeDuck_output (z : Zone) : (recomputeDuck z s).output = s.output := by unfold recomputeDuck; rfl
@[simp] theorem recomputeDuck_notices (z : Zone) : (recomputeDuck z s).notices = s.notices := by unfold recomputeDuck; rfl
@[simp] theorem recomputeDuck_ringOut (z : Zone) : (recomputeDuck z s).ringOut = s.ringOut := by unfold recomputeDuck; rfl
@[simp] theorem recomputeDuck_pending (z : Zone) : (recomputeDuck z s).pending = s.pending := by unfold recomputeDuck; rfl
@[simp] theorem recomputeDuck_zones (z : Zone) : (recomputeDuck z s).gain.zones = s.gain.zones := by unfold recomputeDuck; rfl
@[simp] theorem recomputeDuck_cabin (z : Zone) : (recomputeDuck z s).gain.cabin = s.gain.cabin := by unfold recomputeDuck; rfl
@[simp] theorem recomputeDuck_mutes (z : Zone) : (recomputeDuck z s).gain.mutes = s.gain.mutes := by unfold recomputeDuck; rfl
@[simp] theorem recomputeDuck_userTargets (z : Zone) : (recomputeDuck z s).gain.targets.user = s.gain.targets.user := by unfold recomputeDuck; rfl
@[simp] theorem recomputeDuck_speedTargets (z : Zone) : (recomputeDuck z s).gain.targets.speed = s.gain.targets.speed := by unfold recomputeDuck; rfl
@[simp] theorem recomputeDuck_muteTargets (z : Zone) : (recomputeDuck z s).gain.targets.mute = s.gain.targets.mute := by unfold recomputeDuck; rfl

/-! ### setSpeed -/

@[simp] theorem setSpeed_pins (t : SpeedTracker) : (setSpeed t s).pins = s.pins := rfl
@[simp] theorem setSpeed_port (t : SpeedTracker) : (setSpeed t s).port = s.port := rfl
@[simp] theorem setSpeed_sources (t : SpeedTracker) : (setSpeed t s).sources = s.sources := rfl
@[simp] theorem setSpeed_channels (t : SpeedTracker) : (setSpeed t s).channels = s.channels := rfl
@[simp] theorem setSpeed_equaliser (t : SpeedTracker) : (setSpeed t s).equaliser = s.equaliser := rfl
@[simp] theorem setSpeed_sched (t : SpeedTracker) : (setSpeed t s).sched = s.sched := rfl
@[simp] theorem setSpeed_gain (t : SpeedTracker) : (setSpeed t s).gain = s.gain := rfl
@[simp] theorem setSpeed_ramp (t : SpeedTracker) : (setSpeed t s).ramp = s.ramp := rfl
@[simp] theorem setSpeed_duck (t : SpeedTracker) : (setSpeed t s).duck = s.duck := rfl
@[simp] theorem setSpeed_output (t : SpeedTracker) : (setSpeed t s).output = s.output := rfl
@[simp] theorem setSpeed_notices (t : SpeedTracker) : (setSpeed t s).notices = s.notices := rfl
@[simp] theorem setSpeed_ringOut (t : SpeedTracker) : (setSpeed t s).ringOut = s.ringOut := rfl
@[simp] theorem setSpeed_pending (t : SpeedTracker) : (setSpeed t s).pending = s.pending := rfl
@[simp] theorem setSpeed_speed (t : SpeedTracker) : (setSpeed t s).speed = t := rfl

/-! ### setLane -/

@[simp] theorem setLane_pins (l : Lane) (v : LaneSettings) : (setLane l v s).pins = s.pins := rfl
@[simp] theorem setLane_port (l : Lane) (v : LaneSettings) : (setLane l v s).port = s.port := rfl
@[simp] theorem setLane_sources (l : Lane) (v : LaneSettings) : (setLane l v s).sources = s.sources := rfl
@[simp] theorem setLane_channels (l : Lane) (v : LaneSettings) : (setLane l v s).channels = s.channels := rfl
@[simp] theorem setLane_equaliser (l : Lane) (v : LaneSettings) : (setLane l v s).equaliser = s.equaliser := rfl
@[simp] theorem setLane_sched (l : Lane) (v : LaneSettings) : (setLane l v s).sched = s.sched := rfl
@[simp] theorem setLane_gain (l : Lane) (v : LaneSettings) : (setLane l v s).gain = s.gain := rfl
@[simp] theorem setLane_speed (l : Lane) (v : LaneSettings) : (setLane l v s).speed = s.speed := rfl
@[simp] theorem setLane_duck (l : Lane) (v : LaneSettings) : (setLane l v s).duck = s.duck := rfl
@[simp] theorem setLane_output (l : Lane) (v : LaneSettings) : (setLane l v s).output = s.output := rfl
@[simp] theorem setLane_notices (l : Lane) (v : LaneSettings) : (setLane l v s).notices = s.notices := rfl
@[simp] theorem setLane_ringOut (l : Lane) (v : LaneSettings) : (setLane l v s).ringOut = s.ringOut := rfl
@[simp] theorem setLane_pending (l : Lane) (v : LaneSettings) : (setLane l v s).pending = s.pending := rfl
@[simp] theorem setLane_lanes (l : Lane) (v : LaneSettings) : (setLane l v s).ramp.lanes = s.ramp.lanes.set l v := rfl
@[simp] theorem setLane_currents (l : Lane) (v : LaneSettings) : (setLane l v s).ramp.currents = s.ramp.currents := rfl

/-! ### rampRelock -/

@[simp] theorem rampRelock_pins : (rampRelock s).pins = s.pins := rfl
@[simp] theorem rampRelock_port : (rampRelock s).port = s.port := rfl
@[simp] theorem rampRelock_sources : (rampRelock s).sources = s.sources := rfl
@[simp] theorem rampRelock_channels : (rampRelock s).channels = s.channels := rfl
@[simp] theorem rampRelock_equaliser : (rampRelock s).equaliser = s.equaliser := rfl
@[simp] theorem rampRelock_sched : (rampRelock s).sched = s.sched := rfl
@[simp] theorem rampRelock_gain : (rampRelock s).gain = s.gain := rfl
@[simp] theorem rampRelock_speed : (rampRelock s).speed = s.speed := rfl
@[simp] theorem rampRelock_duck : (rampRelock s).duck = s.duck := rfl
@[simp] theorem rampRelock_output : (rampRelock s).output = s.output := rfl
@[simp] theorem rampRelock_notices : (rampRelock s).notices = s.notices := rfl
@[simp] theorem rampRelock_ringOut : (rampRelock s).ringOut = s.ringOut := rfl
@[simp] theorem rampRelock_pending : (rampRelock s).pending = s.pending := rfl
@[simp] theorem rampRelock_lanes : (rampRelock s).ramp.lanes = s.ramp.lanes := rfl

/-! ### setAssembler -/

@[simp] theorem setAssembler_pins (a : Assembler) : (setAssembler a s).pins = s.pins := rfl
@[simp] theorem setAssembler_sources (a : Assembler) : (setAssembler a s).sources = s.sources := rfl
@[simp] theorem setAssembler_channels (a : Assembler) : (setAssembler a s).channels = s.channels := rfl
@[simp] theorem setAssembler_equaliser (a : Assembler) : (setAssembler a s).equaliser = s.equaliser := rfl
@[simp] theorem setAssembler_sched (a : Assembler) : (setAssembler a s).sched = s.sched := rfl
@[simp] theorem setAssembler_gain (a : Assembler) : (setAssembler a s).gain = s.gain := rfl
@[simp] theorem setAssembler_ramp (a : Assembler) : (setAssembler a s).ramp = s.ramp := rfl
@[simp] theorem setAssembler_speed (a : Assembler) : (setAssembler a s).speed = s.speed := rfl
@[simp] theorem setAssembler_duck (a : Assembler) : (setAssembler a s).duck = s.duck := rfl
@[simp] theorem setAssembler_output (a : Assembler) : (setAssembler a s).output = s.output := rfl
@[simp] theorem setAssembler_notices (a : Assembler) : (setAssembler a s).notices = s.notices := rfl
@[simp] theorem setAssembler_ringOut (a : Assembler) : (setAssembler a s).ringOut = s.ringOut := rfl
@[simp] theorem setAssembler_pending (a : Assembler) : (setAssembler a s).pending = s.pending := rfl
@[simp] theorem setAssembler_assembler (a : Assembler) : (setAssembler a s).port.assembler = a := rfl
@[simp] theorem setAssembler_sender (a : Assembler) : (setAssembler a s).port.sender = s.port.sender := rfl
@[simp] theorem setAssembler_lock (a : Assembler) : (setAssembler a s).port.lock = s.port.lock := rfl
@[simp] theorem setAssembler_misses (a : Assembler) : (setAssembler a s).port.misses = s.port.misses := rfl
@[simp] theorem setAssembler_address (a : Assembler) : (setAssembler a s).port.address = s.port.address := rfl
@[simp] theorem setAssembler_twin (a : Assembler) : (setAssembler a s).port.twin = s.port.twin := rfl
@[simp] theorem setAssembler_held (a : Assembler) : (setAssembler a s).port.held = s.port.held := rfl
@[simp] theorem setAssembler_delays (a : Assembler) : (setAssembler a s).port.delays = s.port.delays := rfl

/-! ### setSender -/

@[simp] theorem setSender_pins (a : Sender) : (setSender a s).pins = s.pins := rfl
@[simp] theorem setSender_sources (a : Sender) : (setSender a s).sources = s.sources := rfl
@[simp] theorem setSender_channels (a : Sender) : (setSender a s).channels = s.channels := rfl
@[simp] theorem setSender_equaliser (a : Sender) : (setSender a s).equaliser = s.equaliser := rfl
@[simp] theorem setSender_sched (a : Sender) : (setSender a s).sched = s.sched := rfl
@[simp] theorem setSender_gain (a : Sender) : (setSender a s).gain = s.gain := rfl
@[simp] theorem setSender_ramp (a : Sender) : (setSender a s).ramp = s.ramp := rfl
@[simp] theorem setSender_speed (a : Sender) : (setSender a s).speed = s.speed := rfl
@[simp] theorem setSender_duck (a : Sender) : (setSender a s).duck = s.duck := rfl
@[simp] theorem setSender_output (a : Sender) : (setSender a s).output = s.output := rfl
@[simp] theorem setSender_notices (a : Sender) : (setSender a s).notices = s.notices := rfl
@[simp] theorem setSender_ringOut (a : Sender) : (setSender a s).ringOut = s.ringOut := rfl
@[simp] theorem setSender_pending (a : Sender) : (setSender a s).pending = s.pending := rfl
@[simp] theorem setSender_sender (a : Sender) : (setSender a s).port.sender = a := rfl
@[simp] theorem setSender_assembler (a : Sender) : (setSender a s).port.assembler = s.port.assembler := rfl
@[simp] theorem setSender_lock (a : Sender) : (setSender a s).port.lock = s.port.lock := rfl
@[simp] theorem setSender_misses (a : Sender) : (setSender a s).port.misses = s.port.misses := rfl
@[simp] theorem setSender_address (a : Sender) : (setSender a s).port.address = s.port.address := rfl
@[simp] theorem setSender_twin (a : Sender) : (setSender a s).port.twin = s.port.twin := rfl
@[simp] theorem setSender_held (a : Sender) : (setSender a s).port.held = s.port.held := rfl
@[simp] theorem setSender_delays (a : Sender) : (setSender a s).port.delays = s.port.delays := rfl

/-! ### setLock -/

@[simp] theorem setLock_pins (l : Lock) (n : Nat) : (setLock l n s).pins = s.pins := rfl
@[simp] theorem setLock_sources (l : Lock) (n : Nat) : (setLock l n s).sources = s.sources := rfl
@[simp] theorem setLock_channels (l : Lock) (n : Nat) : (setLock l n s).channels = s.channels := rfl
@[simp] theorem setLock_equaliser (l : Lock) (n : Nat) : (setLock l n s).equaliser = s.equaliser := rfl
@[simp] theorem setLock_sched (l : Lock) (n : Nat) : (setLock l n s).sched = s.sched := rfl
@[simp] theorem setLock_gain (l : Lock) (n : Nat) : (setLock l n s).gain = s.gain := rfl
@[simp] theorem setLock_ramp (l : Lock) (n : Nat) : (setLock l n s).ramp = s.ramp := rfl
@[simp] theorem setLock_speed (l : Lock) (n : Nat) : (setLock l n s).speed = s.speed := rfl
@[simp] theorem setLock_duck (l : Lock) (n : Nat) : (setLock l n s).duck = s.duck := rfl
@[simp] theorem setLock_output (l : Lock) (n : Nat) : (setLock l n s).output = s.output := rfl
@[simp] theorem setLock_notices (l : Lock) (n : Nat) : (setLock l n s).notices = s.notices := rfl
@[simp] theorem setLock_ringOut (l : Lock) (n : Nat) : (setLock l n s).ringOut = s.ringOut := rfl
@[simp] theorem setLock_pending (l : Lock) (n : Nat) : (setLock l n s).pending = s.pending := rfl
@[simp] theorem setLock_lock (l : Lock) (n : Nat) : (setLock l n s).port.lock = l := rfl
@[simp] theorem setLock_misses (l : Lock) (n : Nat) : (setLock l n s).port.misses = n := rfl
@[simp] theorem setLock_assembler (l : Lock) (n : Nat) : (setLock l n s).port.assembler = s.port.assembler := rfl
@[simp] theorem setLock_sender (l : Lock) (n : Nat) : (setLock l n s).port.sender = s.port.sender := rfl
@[simp] theorem setLock_address (l : Lock) (n : Nat) : (setLock l n s).port.address = s.port.address := rfl
@[simp] theorem setLock_twin (l : Lock) (n : Nat) : (setLock l n s).port.twin = s.port.twin := rfl
@[simp] theorem setLock_held (l : Lock) (n : Nat) : (setLock l n s).port.held = s.port.held := rfl
@[simp] theorem setLock_delays (l : Lock) (n : Nat) : (setLock l n s).port.delays = s.port.delays := rfl

/-! ### emptyDelay -/

@[simp] theorem emptyDelay_pins (c : Chan) : (emptyDelay c s).pins = s.pins := rfl
@[simp] theorem emptyDelay_sources (c : Chan) : (emptyDelay c s).sources = s.sources := rfl
@[simp] theorem emptyDelay_channels (c : Chan) : (emptyDelay c s).channels = s.channels := rfl
@[simp] theorem emptyDelay_equaliser (c : Chan) : (emptyDelay c s).equaliser = s.equaliser := rfl
@[simp] theorem emptyDelay_sched (c : Chan) : (emptyDelay c s).sched = s.sched := rfl
@[simp] theorem emptyDelay_gain (c : Chan) : (emptyDelay c s).gain = s.gain := rfl
@[simp] theorem emptyDelay_ramp (c : Chan) : (emptyDelay c s).ramp = s.ramp := rfl
@[simp] theorem emptyDelay_speed (c : Chan) : (emptyDelay c s).speed = s.speed := rfl
@[simp] theorem emptyDelay_duck (c : Chan) : (emptyDelay c s).duck = s.duck := rfl
@[simp] theorem emptyDelay_output (c : Chan) : (emptyDelay c s).output = s.output := rfl
@[simp] theorem emptyDelay_notices (c : Chan) : (emptyDelay c s).notices = s.notices := rfl
@[simp] theorem emptyDelay_ringOut (c : Chan) : (emptyDelay c s).ringOut = s.ringOut := rfl
@[simp] theorem emptyDelay_pending (c : Chan) : (emptyDelay c s).pending = s.pending := rfl
@[simp] theorem emptyDelay_delays (c : Chan) : (emptyDelay c s).port.delays = s.port.delays.set c Delay.empty := rfl
@[simp] theorem emptyDelay_held (c : Chan) : (emptyDelay c s).port.held = s.port.held := rfl
@[simp] theorem emptyDelay_lock (c : Chan) : (emptyDelay c s).port.lock = s.port.lock := rfl
@[simp] theorem emptyDelay_misses (c : Chan) : (emptyDelay c s).port.misses = s.port.misses := rfl
@[simp] theorem emptyDelay_assembler (c : Chan) : (emptyDelay c s).port.assembler = s.port.assembler := rfl
@[simp] theorem emptyDelay_sender (c : Chan) : (emptyDelay c s).port.sender = s.port.sender := rfl
@[simp] theorem emptyDelay_address (c : Chan) : (emptyDelay c s).port.address = s.port.address := rfl
@[simp] theorem emptyDelay_twin (c : Chan) : (emptyDelay c s).port.twin = s.port.twin := rfl

/-! ### setDuckPin -/

@[simp] theorem setDuckPin_port (b : Bool) : (setDuckPin b s).port = s.port := rfl
@[simp] theorem setDuckPin_sources (b : Bool) : (setDuckPin b s).sources = s.sources := rfl
@[simp] theorem setDuckPin_channels (b : Bool) : (setDuckPin b s).channels = s.channels := rfl
@[simp] theorem setDuckPin_equaliser (b : Bool) : (setDuckPin b s).equaliser = s.equaliser := rfl
@[simp] theorem setDuckPin_sched (b : Bool) : (setDuckPin b s).sched = s.sched := rfl
@[simp] theorem setDuckPin_gain (b : Bool) : (setDuckPin b s).gain = s.gain := rfl
@[simp] theorem setDuckPin_ramp (b : Bool) : (setDuckPin b s).ramp = s.ramp := rfl
@[simp] theorem setDuckPin_speed (b : Bool) : (setDuckPin b s).speed = s.speed := rfl
@[simp] theorem setDuckPin_duck (b : Bool) : (setDuckPin b s).duck = s.duck := rfl
@[simp] theorem setDuckPin_output (b : Bool) : (setDuckPin b s).output = s.output := rfl
@[simp] theorem setDuckPin_notices (b : Bool) : (setDuckPin b s).notices = s.notices := rfl
@[simp] theorem setDuckPin_ringOut (b : Bool) : (setDuckPin b s).ringOut = s.ringOut := rfl
@[simp] theorem setDuckPin_pending (b : Bool) : (setDuckPin b s).pending = s.pending := rfl

/-! ### mapOut -/

@[simp] theorem mapOut_pins (g : OutFrame → OutFrame) : (mapOut g s).pins = s.pins := rfl
@[simp] theorem mapOut_port (g : OutFrame → OutFrame) : (mapOut g s).port = s.port := rfl
@[simp] theorem mapOut_sources (g : OutFrame → OutFrame) : (mapOut g s).sources = s.sources := rfl
@[simp] theorem mapOut_channels (g : OutFrame → OutFrame) : (mapOut g s).channels = s.channels := rfl
@[simp] theorem mapOut_equaliser (g : OutFrame → OutFrame) : (mapOut g s).equaliser = s.equaliser := rfl
@[simp] theorem mapOut_sched (g : OutFrame → OutFrame) : (mapOut g s).sched = s.sched := rfl
@[simp] theorem mapOut_gain (g : OutFrame → OutFrame) : (mapOut g s).gain = s.gain := rfl
@[simp] theorem mapOut_ramp (g : OutFrame → OutFrame) : (mapOut g s).ramp = s.ramp := rfl
@[simp] theorem mapOut_speed (g : OutFrame → OutFrame) : (mapOut g s).speed = s.speed := rfl
@[simp] theorem mapOut_duck (g : OutFrame → OutFrame) : (mapOut g s).duck = s.duck := rfl
@[simp] theorem mapOut_output (g : OutFrame → OutFrame) : (mapOut g s).output = s.output := rfl
@[simp] theorem mapOut_notices (g : OutFrame → OutFrame) : (mapOut g s).notices = s.notices := rfl
@[simp] theorem mapOut_pending (g : OutFrame → OutFrame) : (mapOut g s).pending = s.pending := rfl
@[simp] theorem mapOut_ringOut (g : OutFrame → OutFrame) : (mapOut g s).ringOut = s.ringOut.map g := rfl

/-! ### passUntouched -/

@[simp] theorem passUntouched_pins (f : RingFrame) : (passUntouched f s).pins = s.pins := rfl
@[simp] theorem passUntouched_port (f : RingFrame) : (passUntouched f s).port = s.port := rfl
@[simp] theorem passUntouched_sources (f : RingFrame) : (passUntouched f s).sources = s.sources := rfl
@[simp] theorem passUntouched_channels (f : RingFrame) : (passUntouched f s).channels = s.channels := rfl
@[simp] theorem passUntouched_equaliser (f : RingFrame) : (passUntouched f s).equaliser = s.equaliser := rfl
@[simp] theorem passUntouched_sched (f : RingFrame) : (passUntouched f s).sched = s.sched := rfl
@[simp] theorem passUntouched_gain (f : RingFrame) : (passUntouched f s).gain = s.gain := rfl
@[simp] theorem passUntouched_ramp (f : RingFrame) : (passUntouched f s).ramp = s.ramp := rfl
@[simp] theorem passUntouched_speed (f : RingFrame) : (passUntouched f s).speed = s.speed := rfl
@[simp] theorem passUntouched_duck (f : RingFrame) : (passUntouched f s).duck = s.duck := rfl
@[simp] theorem passUntouched_output (f : RingFrame) : (passUntouched f s).output = s.output := rfl
@[simp] theorem passUntouched_notices (f : RingFrame) : (passUntouched f s).notices = s.notices := rfl
@[simp] theorem passUntouched_pending (f : RingFrame) : (passUntouched f s).pending = s.pending := rfl
@[simp] theorem passUntouched_ringOut (f : RingFrame) : (passUntouched f s).ringOut = some { frame := f, judged := .untouched } := rfl

/-! ### answering -/

@[simp] theorem answering_pins (code : ResultCode) (sp : BitVec 4) (cmd : BitVec 8) (data : List Word32) (d : Deferred) : (s.answering code sp cmd data d).pins = s.pins := rfl
@[simp] theorem answering_sources (code : ResultCode) (sp : BitVec 4) (cmd : BitVec 8) (data : List Word32) (d : Deferred) : (s.answering code sp cmd data d).sources = s.sources := rfl
@[simp] theorem answering_channels (code : ResultCode) (sp : BitVec 4) (cmd : BitVec 8) (data : List Word32) (d : Deferred) : (s.answering code sp cmd data d).channels = s.channels := rfl
@[simp] theorem answering_equaliser (code : ResultCode) (sp : BitVec 4) (cmd : BitVec 8) (data : List Word32) (d : Deferred) : (s.answering code sp cmd data d).equaliser = s.equaliser := rfl
@[simp] theorem answering_sched (code : ResultCode) (sp : BitVec 4) (cmd : BitVec 8) (data : List Word32) (d : Deferred) : (s.answering code sp cmd data d).sched = s.sched := rfl
@[simp] theorem answering_gain (code : ResultCode) (sp : BitVec 4) (cmd : BitVec 8) (data : List Word32) (d : Deferred) : (s.answering code sp cmd data d).gain = s.gain := rfl
@[simp] theorem answering_ramp (code : ResultCode) (sp : BitVec 4) (cmd : BitVec 8) (data : List Word32) (d : Deferred) : (s.answering code sp cmd data d).ramp = s.ramp := rfl
@[simp] theorem answering_speed (code : ResultCode) (sp : BitVec 4) (cmd : BitVec 8) (data : List Word32) (d : Deferred) : (s.answering code sp cmd data d).speed = s.speed := rfl
@[simp] theorem answering_duck (code : ResultCode) (sp : BitVec 4) (cmd : BitVec 8) (data : List Word32) (d : Deferred) : (s.answering code sp cmd data d).duck = s.duck := rfl
@[simp] theorem answering_output (code : ResultCode) (sp : BitVec 4) (cmd : BitVec 8) (data : List Word32) (d : Deferred) : (s.answering code sp cmd data d).output = s.output := rfl
@[simp] theorem answering_notices (code : ResultCode) (sp : BitVec 4) (cmd : BitVec 8) (data : List Word32) (d : Deferred) : (s.answering code sp cmd data d).notices = s.notices := rfl
@[simp] theorem answering_ringOut (code : ResultCode) (sp : BitVec 4) (cmd : BitVec 8) (data : List Word32) (d : Deferred) : (s.answering code sp cmd data d).ringOut = s.ringOut := rfl
@[simp] theorem answering_pending (code : ResultCode) (sp : BitVec 4) (cmd : BitVec 8) (data : List Word32) (d : Deferred) : (s.answering code sp cmd data d).pending = s.pending := rfl
@[simp] theorem answering_lock (code : ResultCode) (sp : BitVec 4) (cmd : BitVec 8) (data : List Word32) (d : Deferred) : (s.answering code sp cmd data d).port.lock = s.port.lock := rfl
@[simp] theorem answering_misses (code : ResultCode) (sp : BitVec 4) (cmd : BitVec 8) (data : List Word32) (d : Deferred) : (s.answering code sp cmd data d).port.misses = s.port.misses := rfl
@[simp] theorem answering_assembler (code : ResultCode) (sp : BitVec 4) (cmd : BitVec 8) (data : List Word32) (d : Deferred) : (s.answering code sp cmd data d).port.assembler = s.port.assembler := rfl
@[simp] theorem answering_address (code : ResultCode) (sp : BitVec 4) (cmd : BitVec 8) (data : List Word32) (d : Deferred) : (s.answering code sp cmd data d).port.address = s.port.address := rfl
@[simp] theorem answering_twin (code : ResultCode) (sp : BitVec 4) (cmd : BitVec 8) (data : List Word32) (d : Deferred) : (s.answering code sp cmd data d).port.twin = s.port.twin := rfl
@[simp] theorem answering_held (code : ResultCode) (sp : BitVec 4) (cmd : BitVec 8) (data : List Word32) (d : Deferred) : (s.answering code sp cmd data d).port.held = s.port.held := rfl
@[simp] theorem answering_delays (code : ResultCode) (sp : BitVec 4) (cmd : BitVec 8) (data : List Word32) (d : Deferred) : (s.answering code sp cmd data d).port.delays = s.port.delays := rfl

/-! ### notify and resettle -/

@[simp] theorem notify_pins (k : NoticeKind) : (notify k s).pins = s.pins := by unfold notify; split <;> rfl
@[simp] theorem notifyIf_pins (b : Bool) (k : NoticeKind) : (notifyIf b k s).pins = s.pins := by
  unfold notifyIf; split <;> simp
@[simp] theorem notify_port (k : NoticeKind) : (notify k s).port = s.port := by unfold notify; split <;> rfl
@[simp] theorem notifyIf_port (b : Bool) (k : NoticeKind) : (notifyIf b k s).port = s.port := by
  unfold notifyIf; split <;> simp
@[simp] theorem notify_sources (k : NoticeKind) : (notify k s).sources = s.sources := by unfold notify; split <;> rfl
@[simp] theorem notifyIf_sources (b : Bool) (k : NoticeKind) : (notifyIf b k s).sources = s.sources := by
  unfold notifyIf; split <;> simp
@[simp] theorem notify_channels (k : NoticeKind) : (notify k s).channels = s.channels := by unfold notify; split <;> rfl
@[simp] theorem notifyIf_channels (b : Bool) (k : NoticeKind) : (notifyIf b k s).channels = s.channels := by
  unfold notifyIf; split <;> simp
@[simp] theorem notify_equaliser (k : NoticeKind) : (notify k s).equaliser = s.equaliser := by unfold notify; split <;> rfl
@[simp] theorem notifyIf_equaliser (b : Bool) (k : NoticeKind) : (notifyIf b k s).equaliser = s.equaliser := by
  unfold notifyIf; split <;> simp
@[simp] theorem notify_sched (k : NoticeKind) : (notify k s).sched = s.sched := by unfold notify; split <;> rfl
@[simp] theorem notifyIf_sched (b : Bool) (k : NoticeKind) : (notifyIf b k s).sched = s.sched := by
  unfold notifyIf; split <;> simp
@[simp] theorem notify_gain (k : NoticeKind) : (notify k s).gain = s.gain := by unfold notify; split <;> rfl
@[simp] theorem notifyIf_gain (b : Bool) (k : NoticeKind) : (notifyIf b k s).gain = s.gain := by
  unfold notifyIf; split <;> simp
@[simp] theorem notify_ramp (k : NoticeKind) : (notify k s).ramp = s.ramp := by unfold notify; split <;> rfl
@[simp] theorem notifyIf_ramp (b : Bool) (k : NoticeKind) : (notifyIf b k s).ramp = s.ramp := by
  unfold notifyIf; split <;> simp
@[simp] theorem notify_speed (k : NoticeKind) : (notify k s).speed = s.speed := by unfold notify; split <;> rfl
@[simp] theorem notifyIf_speed (b : Bool) (k : NoticeKind) : (notifyIf b k s).speed = s.speed := by
  unfold notifyIf; split <;> simp
@[simp] theorem notify_duck (k : NoticeKind) : (notify k s).duck = s.duck := by unfold notify; split <;> rfl
@[simp] theorem notifyIf_duck (b : Bool) (k : NoticeKind) : (notifyIf b k s).duck = s.duck := by
  unfold notifyIf; split <;> simp
@[simp] theorem notify_output (k : NoticeKind) : (notify k s).output = s.output := by unfold notify; split <;> rfl
@[simp] theorem notifyIf_output (b : Bool) (k : NoticeKind) : (notifyIf b k s).output = s.output := by
  unfold notifyIf; split <;> simp
@[simp] theorem notify_ringOut (k : NoticeKind) : (notify k s).ringOut = s.ringOut := by unfold notify; split <;> rfl
@[simp] theorem notifyIf_ringOut (b : Bool) (k : NoticeKind) : (notifyIf b k s).ringOut = s.ringOut := by
  unfold notifyIf; split <;> simp
@[simp] theorem notify_pending (k : NoticeKind) : (notify k s).pending = s.pending := by unfold notify; split <;> rfl
@[simp] theorem notifyIf_pending (b : Bool) (k : NoticeKind) : (notifyIf b k s).pending = s.pending := by
  unfold notifyIf; split <;> simp
@[simp] theorem notify_enabled (k : NoticeKind) : (notify k s).notices.enabled = s.notices.enabled := by
  unfold notify; split <;> rfl
@[simp] theorem notifyIf_enabled (b : Bool) (k : NoticeKind) : (notifyIf b k s).notices.enabled = s.notices.enabled := by
  unfold notifyIf; split <;> simp
@[simp] theorem notify_roll (k : NoticeKind) : (notify k s).notices.roll = s.notices.roll := by
  unfold notify; split <;> rfl
@[simp] theorem notifyIf_roll (b : Bool) (k : NoticeKind) : (notifyIf b k s).notices.roll = s.notices.roll := by
  unfold notifyIf; split <;> simp
@[simp] theorem resettle_pins (z : Zone) : (resettle z s).pins = s.pins := by simp [resettle]
@[simp] theorem resettleZones_pins (a b : Bool) : (resettleZones a b s).pins = s.pins := by
  unfold resettleZones; cases a <;> cases b <;> simp
@[simp] theorem resettle_port (z : Zone) : (resettle z s).port = s.port := by simp [resettle]
@[simp] theorem resettleZones_port (a b : Bool) : (resettleZones a b s).port = s.port := by
  unfold resettleZones; cases a <;> cases b <;> simp
@[simp] theorem resettle_sources (z : Zone) : (resettle z s).sources = s.sources := by simp [resettle]
@[simp] theorem resettleZones_sources (a b : Bool) : (resettleZones a b s).sources = s.sources := by
  unfold resettleZones; cases a <;> cases b <;> simp
@[simp] theorem resettle_channels (z : Zone) : (resettle z s).channels = s.channels := by simp [resettle]
@[simp] theorem resettleZones_channels (a b : Bool) : (resettleZones a b s).channels = s.channels := by
  unfold resettleZones; cases a <;> cases b <;> simp
@[simp] theorem resettle_equaliser (z : Zone) : (resettle z s).equaliser = s.equaliser := by simp [resettle]
@[simp] theorem resettleZones_equaliser (a b : Bool) : (resettleZones a b s).equaliser = s.equaliser := by
  unfold resettleZones; cases a <;> cases b <;> simp
@[simp] theorem resettle_gain (z : Zone) : (resettle z s).gain = s.gain := by simp [resettle]
@[simp] theorem resettleZones_gain (a b : Bool) : (resettleZones a b s).gain = s.gain := by
  unfold resettleZones; cases a <;> cases b <;> simp
@[simp] theorem resettle_ramp (z : Zone) : (resettle z s).ramp = s.ramp := by simp [resettle]
@[simp] theorem resettleZones_ramp (a b : Bool) : (resettleZones a b s).ramp = s.ramp := by
  unfold resettleZones; cases a <;> cases b <;> simp
@[simp] theorem resettle_speed (z : Zone) : (resettle z s).speed = s.speed := by simp [resettle]
@[simp] theorem resettleZones_speed (a b : Bool) : (resettleZones a b s).speed = s.speed := by
  unfold resettleZones; cases a <;> cases b <;> simp
@[simp] theorem resettle_duck (z : Zone) : (resettle z s).duck = s.duck := by simp [resettle]
@[simp] theorem resettleZones_duck (a b : Bool) : (resettleZones a b s).duck = s.duck := by
  unfold resettleZones; cases a <;> cases b <;> simp
@[simp] theorem resettle_output (z : Zone) : (resettle z s).output = s.output := by simp [resettle]
@[simp] theorem resettleZones_output (a b : Bool) : (resettleZones a b s).output = s.output := by
  unfold resettleZones; cases a <;> cases b <;> simp
@[simp] theorem resettle_ringOut (z : Zone) : (resettle z s).ringOut = s.ringOut := by simp [resettle]
@[simp] theorem resettleZones_ringOut (a b : Bool) : (resettleZones a b s).ringOut = s.ringOut := by
  unfold resettleZones; cases a <;> cases b <;> simp
@[simp] theorem resettle_pending (z : Zone) : (resettle z s).pending = s.pending := by simp [resettle]
@[simp] theorem resettleZones_pending (a b : Bool) : (resettleZones a b s).pending = s.pending := by
  unfold resettleZones; cases a <;> cases b <;> simp
@[simp] theorem resettle_switch (z : Zone) : (resettle z s).sched.switch = s.sched.switch := by simp [resettle]
@[simp] theorem resettleZones_switch (a b : Bool) : (resettleZones a b s).sched.switch = s.sched.switch := by
  unfold resettleZones; cases a <;> cases b <;> simp
@[simp] theorem resettle_slots (z : Zone) : (resettle z s).sched.slots = s.sched.slots := by simp [resettle]
@[simp] theorem resettleZones_slots (a b : Bool) : (resettleZones a b s).sched.slots = s.sched.slots := by
  unfold resettleZones; cases a <;> cases b <;> simp
@[simp] theorem resettle_queue (z : Zone) : (resettle z s).sched.queue = s.sched.queue := by simp [resettle]
@[simp] theorem resettleZones_queue (a b : Bool) : (resettleZones a b s).sched.queue = s.sched.queue := by
  unfold resettleZones; cases a <;> cases b <;> simp
@[simp] theorem resettle_enabled (z : Zone) : (resettle z s).notices.enabled = s.notices.enabled := by simp [resettle]
@[simp] theorem resettleZones_enabled (a b : Bool) : (resettleZones a b s).notices.enabled = s.notices.enabled := by
  unfold resettleZones; cases a <;> cases b <;> simp
@[simp] theorem resettle_roll (z : Zone) : (resettle z s).notices.roll = s.notices.roll := by simp [resettle]
@[simp] theorem resettleZones_roll (a b : Bool) : (resettleZones a b s).notices.roll = s.notices.roll := by
  unfold resettleZones; cases a <;> cases b <;> simp

/-- Recording a notice adds its kind where it is enabled, and no other (R161). -/
@[simp] theorem notify_pending_has (k j : NoticeKind) : hasKind (notify k s).notices.pending j =
    (hasKind s.notices.pending j || (decide (j = k) && hasKind s.notices.enabled k)) := by
  unfold notify
  cases h : hasKind s.notices.enabled k <;> cases k <;> cases j <;> simp_all [hasKind, addKind]

end Sys2Proof.Machine
end

