-- ==== Sys2Proof/Laws/Pages.lean ====
section
/-! SUPPORT. Page requests and what follows them move only pages: the Page Scheduler, the live counts and chain states, and
the pending PAGE_SETTLED notice. -/

namespace Sys2Proof.Machine

variable {s t u : State}

theorem OnlyPagesMove.refl (s : State) : OnlyPagesMove s s := by constructor <;> simp +contextual

theorem OnlyPagesMove.trans (h : OnlyPagesMove s t) (g : OnlyPagesMove t u) : OnlyPagesMove s u where
  pins := g.pins.trans h.pins
  port := g.port.trans h.port
  sources := g.sources.trans h.sources
  channels := g.channels.trans h.channels
  programs := g.programs.trans h.programs
  coeffs i := ⟨(g.coeffs i).1.trans (h.coeffs i).1, (g.coeffs i).2.trans (h.coeffs i).2⟩
  gain := g.gain.trans h.gain
  ramp := g.ramp.trans h.ramp
  speed := g.speed.trans h.speed
  duck := g.duck.trans h.duck
  output := g.output.trans h.output
  enabled := g.enabled.trans h.enabled
  roll := g.roll.trans h.roll
  kinds k hk := (g.kinds k hk).trans (h.kinds k hk)
  keeps x := g.keeps (h.keeps x)
  raises x := by
    rcases g.raises x with y | y
    · exact h.raises y
    · exact .inr (by rw [← h.enabled]; exact y)
  ringOut := g.ringOut.trans h.ringOut
  pending := g.pending.trans h.pending

/-- What moves only pages, applied to every channel of a list in turn, moves only pages. -/
theorem OnlyPagesMove.foldl {α : Type} (f : State → α → State) (hf : ∀ s a, OnlyPagesMove s (f s a)) (l : List α)
    (s : State) : OnlyPagesMove s (l.foldl f s) := by
  induction l generalizing s with
  | nil => exact .refl s
  | cons a l ih => exact (hf s a).trans (ih _)

theorem onlyPages_sched (s : State) (x : Scheduler) : OnlyPagesMove s { s with sched := x } := by
  constructor <;> simp +contextual

theorem onlyPages_setSwitch (c w) : OnlyPagesMove s (setSwitch c w s) := onlyPages_sched _ _
theorem onlyPages_setSlot (i f) : OnlyPagesMove s (setSlot i f s) := onlyPages_sched _ _
theorem onlyPages_setQueue (q) : OnlyPagesMove s (setQueue q s) := onlyPages_sched _ _
theorem onlyPages_leaveQueue (c) : OnlyPagesMove s (leaveQueue c s) := onlyPages_sched _ _
theorem onlyPages_joinQueue (c) : OnlyPagesMove s (joinQueue c s) := onlyPages_sched _ _

theorem onlyPages_active (s : State) (x : Vector Chain 24) : OnlyPagesMove s { s with equaliser.active := x } := by
  constructor <;> simp +contextual
theorem onlyPages_target (s : State) (x : Vector (Option Chain) 24) :
    OnlyPagesMove s { s with equaliser.target := x } := by constructor <;> simp +contextual

theorem onlyPages_setActiveChain (c h) : OnlyPagesMove s (setActiveChain c h s) := onlyPages_active _ _
theorem onlyPages_setTargetChain (c h) : OnlyPagesMove s (setTargetChain c h s) := onlyPages_target _ _

@[simp] theorem addLive_coeffs (p : Program) (i : SectionId) :
    ((addLive p s).equaliser.sections[i]).coeffs = (s.equaliser.sections[i]).coeffs := by simp [addLive, counted]
@[simp] theorem addLive_valid (p : Program) (i : SectionId) :
    ((addLive p s).equaliser.sections[i]).valid = (s.equaliser.sections[i]).valid := by simp [addLive, counted]
@[simp] theorem addLive_live (p : Program) (i : SectionId) :
    ((addLive p s).equaliser.sections[i]).live = (s.equaliser.sections[i]).live + p.count i := by
  simp [addLive, counted]
@[simp] theorem subLive_coeffs (p : Program) (i : SectionId) :
    ((subLive p s).equaliser.sections[i]).coeffs = (s.equaliser.sections[i]).coeffs := by simp [subLive, uncounted]
@[simp] theorem subLive_valid (p : Program) (i : SectionId) :
    ((subLive p s).equaliser.sections[i]).valid = (s.equaliser.sections[i]).valid := by simp [subLive, uncounted]
@[simp] theorem subLive_live (p : Program) (i : SectionId) :
    ((subLive p s).equaliser.sections[i]).live = (s.equaliser.sections[i]).live - p.count i := by
  simp [subLive, uncounted]

theorem onlyPages_addLive (p) : OnlyPagesMove s (addLive p s) := by
  constructor <;> first | (intro i; exact ⟨addLive_coeffs p i, addLive_valid p i⟩) | simp +contextual
theorem onlyPages_subLive (p) : OnlyPagesMove s (subLive p s) := by
  constructor <;> first | (intro i; exact ⟨subLive_coeffs p i, subLive_valid p i⟩) | simp +contextual

theorem onlyPages_eqStart (c q) : OnlyPagesMove s (eqStart c q s) := by
  unfold eqStart
  exact (onlyPages_addLive _).trans (onlyPages_setTargetChain _ _)

theorem onlyPages_eqComplete (c p) : OnlyPagesMove s (eqComplete c p s) := by
  dsimp only [eqComplete]
  split
  · exact (onlyPages_subLive _).trans ((onlyPages_setActiveChain _ _).trans (onlyPages_setTargetChain _ _))
  · exact onlyPages_subLive _

theorem onlyPages_eqSwitch (c p q) : OnlyPagesMove s (eqSwitch c p q s) := by
  unfold eqSwitch
  exact (onlyPages_subLive _).trans ((onlyPages_addLive _).trans (onlyPages_setActiveChain _ _))

theorem onlyPages_zeroActive (c) : OnlyPagesMove s (zeroActive c s) := onlyPages_setActiveChain _ _

theorem onlyPages_zeroAllChains : OnlyPagesMove s (zeroAllChains s) := by
  constructor <;> simp +contextual

theorem onlyPages_startFade (c p q i) : OnlyPagesMove s (startFade c p q i s) :=
  (onlyPages_setSlot _ _).trans ((onlyPages_setSwitch _ _).trans (onlyPages_eqStart _ _))

theorem onlyPages_instantSwitch (c p q) : OnlyPagesMove s (instantSwitch c p q s) :=
  (onlyPages_setSwitch _ _).trans (onlyPages_eqSwitch _ _ _)

theorem onlyPages_requestEnabled (c r) : OnlyPagesMove s (requestEnabled c r s) := by
  unfold requestEnabled
  split
  · split
    · exact .refl s
    · split
      · exact onlyPages_startFade _ _ _ _
      · exact (onlyPages_setSwitch _ _).trans (onlyPages_joinQueue _)
  · split
    · exact (onlyPages_setSwitch _ _).trans (onlyPages_leaveQueue _)
    · exact onlyPages_setSwitch _ _
  · split
    · exact onlyPages_setSlot _ _
    · exact .refl s

theorem onlyPages_requestDisabled (c r) : OnlyPagesMove s (requestDisabled c r s) := by
  unfold requestDisabled
  split
  · split
    · exact .refl s
    · exact onlyPages_instantSwitch _ _ _
  · exact .refl s
  · exact .refl s

/-- A page request moves only pages. -/
theorem onlyPages_pageRequest (c r) : OnlyPagesMove s (pageRequest c r s) := by
  unfold pageRequest
  split
  · exact onlyPages_requestEnabled _ _
  · exact onlyPages_requestDisabled _ _

/-- A grant moves only pages. -/
theorem onlyPages_grantHead (i) : OnlyPagesMove s (grantHead i s) := by
  unfold grantHead
  split
  · exact .refl s
  · split
    · exact (onlyPages_setQueue _).trans (onlyPages_startFade _ _ _ _)
    · exact onlyPages_setQueue _
    · exact onlyPages_setQueue _

theorem onlyPages_carryOver (f i) : OnlyPagesMove s (carryOver f i s) :=
  (onlyPages_eqComplete _ _).trans ((onlyPages_setSwitch _ _).trans (onlyPages_setSlot _ _))

theorem onlyPages_requeue (f) : OnlyPagesMove s (requeue f s) := by
  unfold requeue
  split
  · exact .refl s
  · exact (onlyPages_setSwitch _ _).trans (onlyPages_joinQueue _)

/-- A completion, with its re-queue and its grant, moves only pages. -/
theorem onlyPages_completeFade (i) : OnlyPagesMove s (completeFade i s) := by
  unfold completeFade
  split
  · exact (onlyPages_carryOver _ _).trans ((onlyPages_requeue _).trans (onlyPages_grantHead _))
  · exact .refl s

theorem onlyPages_endFade (f i) : OnlyPagesMove s (endFade f i s) := by
  dsimp only [endFade]
  split
  · exact onlyPages_carryOver _ _
  · exact (onlyPages_carryOver _ _).trans (onlyPages_instantSwitch _ _ _)

theorem onlyPages_schedDisable (c) : OnlyPagesMove s (schedDisable c s) := by
  unfold schedDisable
  split
  · exact .refl s
  · exact (onlyPages_leaveQueue _).trans (onlyPages_instantSwitch _ _ _)
  · split
    · exact (onlyPages_endFade _ _).trans (onlyPages_grantHead _)
    · exact .refl s

theorem onlyPages_schedLoseChannel (s : State) (c) : OnlyPagesMove s (schedLoseChannel s c) := by
  unfold schedLoseChannel
  split
  · exact .refl s
  · exact (onlyPages_leaveQueue _).trans (onlyPages_instantSwitch _ _ _)
  · split
    · exact onlyPages_endFade _ _
    · exact .refl s

theorem onlyPages_notify_settled : OnlyPagesMove s (notify .pageSettled s) := by
  constructor <;> simp +contextual

/-- Re-evaluating a settled flag moves only pages. -/
theorem onlyPages_resettle (z) : OnlyPagesMove s (resettle z s) := by
  dsimp only [resettle]
  refine (onlyPages_sched s { s.sched with settled := s.sched.settled.set z (isSettled s z) }).trans ?_
  unfold notifyIf
  split
  · exact onlyPages_notify_settled
  · exact .refl _

theorem onlyPages_resettleZones (a b) : OnlyPagesMove s (resettleZones a b s) := by
  cases a <;> cases b
  · exact .refl s
  · exact onlyPages_resettle _
  · exact onlyPages_resettle _
  · exact (onlyPages_resettle _).trans (onlyPages_resettle _)

theorem onlyPages_schedLockLoss : OnlyPagesMove s (schedLockLoss s) := by
  dsimp only [schedLockLoss]
  have h := OnlyPagesMove.foldl _ onlyPages_schedLoseChannel (List.finRange 24) s
  generalize List.foldl schedLoseChannel s (List.finRange 24) = u at h
  refine h.trans ((onlyPages_sched u { u.sched with slots := Vector.replicate 8 none, queue := [] }).trans ?_)
  exact onlyPages_resettleZones _ _

theorem onlyPages_requestIfIn (a b) (s : State) (c) : OnlyPagesMove s (requestIfIn a b s c) := by
  unfold requestIfIn
  split <;> split <;> first | exact onlyPages_pageRequest _ _ | exact .refl s

/-- A set of page requests moves only pages. -/
theorem onlyPages_handRequests (a b) : OnlyPagesMove s (handRequests a b s) :=
  (OnlyPagesMove.foldl _ (onlyPages_requestIfIn a b) _ s).trans (onlyPages_resettleZones _ _)

end Sys2Proof.Machine
end

