-- ==== Sys2Proof/Laws/Commands.lean ====
section
/-! SUPPORT. What the Gain Planner's acts and the owners of the ring commands leave as it was, field by field. -/

namespace Sys2Proof.Machine

variable (s : State)

/-- Re-evaluating requested pages sets the zones it picks; everything after that moves only pages. -/
theorem onlyPages_reviewPages (a b : Bool) :
    OnlyPagesMove
      { s with gain.zones := reviewedZones a b s.gain.zones } (reviewPages a b s) := by
  dsimp only [reviewPages]
  split
  · exact onlyPages_handRequests _ _
  · exact .refl _

@[simp] theorem reviewPages_pins (a b : Bool) : (reviewPages a b s).pins = s.pins := (onlyPages_reviewPages s a b).pins
@[simp] theorem reviewPages_port (a b : Bool) : (reviewPages a b s).port = s.port := (onlyPages_reviewPages s a b).port
@[simp] theorem reviewPages_sources (a b : Bool) : (reviewPages a b s).sources = s.sources := (onlyPages_reviewPages s a b).sources
@[simp] theorem reviewPages_channels (a b : Bool) : (reviewPages a b s).channels = s.channels := (onlyPages_reviewPages s a b).channels
@[simp] theorem reviewPages_ramp (a b : Bool) : (reviewPages a b s).ramp = s.ramp := (onlyPages_reviewPages s a b).ramp
@[simp] theorem reviewPages_speed (a b : Bool) : (reviewPages a b s).speed = s.speed := (onlyPages_reviewPages s a b).speed
@[simp] theorem reviewPages_duck (a b : Bool) : (reviewPages a b s).duck = s.duck := (onlyPages_reviewPages s a b).duck
@[simp] theorem reviewPages_output (a b : Bool) : (reviewPages a b s).output = s.output := (onlyPages_reviewPages s a b).output
@[simp] theorem reviewPages_ringOut (a b : Bool) : (reviewPages a b s).ringOut = s.ringOut := (onlyPages_reviewPages s a b).ringOut
@[simp] theorem reviewPages_pending (a b : Bool) : (reviewPages a b s).pending = s.pending := (onlyPages_reviewPages s a b).pending
@[simp] theorem reviewPages_gain_cabin (a b : Bool) : (reviewPages a b s).gain.cabin = s.gain.cabin := by
  rw [(onlyPages_reviewPages s a b).gain]
@[simp] theorem reviewPages_gain_mutes (a b : Bool) : (reviewPages a b s).gain.mutes = s.gain.mutes := by
  rw [(onlyPages_reviewPages s a b).gain]
@[simp] theorem reviewPages_gain_targets (a b : Bool) : (reviewPages a b s).gain.targets = s.gain.targets := by
  rw [(onlyPages_reviewPages s a b).gain]
@[simp] theorem reviewPages_equaliser_programs (a b : Bool) : (reviewPages a b s).equaliser.programs = s.equaliser.programs := (onlyPages_reviewPages s a b).programs
@[simp] theorem reviewPages_notices_enabled (a b : Bool) : (reviewPages a b s).notices.enabled = s.notices.enabled := (onlyPages_reviewPages s a b).enabled
@[simp] theorem reviewPages_notices_roll (a b : Bool) : (reviewPages a b s).notices.roll = s.notices.roll := (onlyPages_reviewPages s a b).roll
@[simp] theorem reviewPages_zones (a b : Bool) : (reviewPages a b s).gain.zones =
    reviewedZones a b s.gain.zones := by
  rw [(onlyPages_reviewPages s a b).gain]
@[simp] theorem reviewPage_pins (z : Zone) : (reviewPage z s).pins = s.pins := reviewPages_pins s _ _
@[simp] theorem reviewPage_port (z : Zone) : (reviewPage z s).port = s.port := reviewPages_port s _ _
@[simp] theorem reviewPage_sources (z : Zone) : (reviewPage z s).sources = s.sources := reviewPages_sources s _ _
@[simp] theorem reviewPage_channels (z : Zone) : (reviewPage z s).channels = s.channels := reviewPages_channels s _ _
@[simp] theorem reviewPage_ramp (z : Zone) : (reviewPage z s).ramp = s.ramp := reviewPages_ramp s _ _
@[simp] theorem reviewPage_speed (z : Zone) : (reviewPage z s).speed = s.speed := reviewPages_speed s _ _
@[simp] theorem reviewPage_duck (z : Zone) : (reviewPage z s).duck = s.duck := reviewPages_duck s _ _
@[simp] theorem reviewPage_output (z : Zone) : (reviewPage z s).output = s.output := reviewPages_output s _ _
@[simp] theorem reviewPage_ringOut (z : Zone) : (reviewPage z s).ringOut = s.ringOut := reviewPages_ringOut s _ _
@[simp] theorem reviewPage_pending (z : Zone) : (reviewPage z s).pending = s.pending := reviewPages_pending s _ _
@[simp] theorem reviewPage_gain_cabin (z : Zone) : (reviewPage z s).gain.cabin = s.gain.cabin := reviewPages_gain_cabin s _ _
@[simp] theorem reviewPage_gain_mutes (z : Zone) : (reviewPage z s).gain.mutes = s.gain.mutes := reviewPages_gain_mutes s _ _
@[simp] theorem reviewPage_gain_targets (z : Zone) : (reviewPage z s).gain.targets = s.gain.targets := reviewPages_gain_targets s _ _
@[simp] theorem reviewPage_equaliser_programs (z : Zone) : (reviewPage z s).equaliser.programs = s.equaliser.programs := reviewPages_equaliser_programs s _ _
@[simp] theorem reviewPage_notices_enabled (z : Zone) : (reviewPage z s).notices.enabled = s.notices.enabled := reviewPages_notices_enabled s _ _
@[simp] theorem reviewPage_notices_roll (z : Zone) : (reviewPage z s).notices.roll = s.notices.roll := reviewPages_notices_roll s _ _

/-! ### A new effective speed -/

@[simp] theorem takeEffective_pins : (takeEffective s).pins = s.pins := by simp [takeEffective]
@[simp] theorem handEffective_pins (v : Nat) : (handEffective v s).pins = s.pins := by
  unfold handEffective; split <;> simp
@[simp] theorem speedEvent_pins (t : SpeedTracker) : (speedEvent t s).pins = s.pins := by simp [speedEvent]
@[simp] theorem takeEffective_port : (takeEffective s).port = s.port := by simp [takeEffective]
@[simp] theorem handEffective_port (v : Nat) : (handEffective v s).port = s.port := by
  unfold handEffective; split <;> simp
@[simp] theorem speedEvent_port (t : SpeedTracker) : (speedEvent t s).port = s.port := by simp [speedEvent]
@[simp] theorem takeEffective_sources : (takeEffective s).sources = s.sources := by simp [takeEffective]
@[simp] theorem handEffective_sources (v : Nat) : (handEffective v s).sources = s.sources := by
  unfold handEffective; split <;> simp
@[simp] theorem speedEvent_sources (t : SpeedTracker) : (speedEvent t s).sources = s.sources := by simp [speedEvent]
@[simp] theorem takeEffective_channels : (takeEffective s).channels = s.channels := by simp [takeEffective]
@[simp] theorem handEffective_channels (v : Nat) : (handEffective v s).channels = s.channels := by
  unfold handEffective; split <;> simp
@[simp] theorem speedEvent_channels (t : SpeedTracker) : (speedEvent t s).channels = s.channels := by simp [speedEvent]
@[simp] theorem takeEffective_ramp : (takeEffective s).ramp = s.ramp := by simp [takeEffective]
@[simp] theorem handEffective_ramp (v : Nat) : (handEffective v s).ramp = s.ramp := by
  unfold handEffective; split <;> simp
@[simp] theorem speedEvent_ramp (t : SpeedTracker) : (speedEvent t s).ramp = s.ramp := by simp [speedEvent]
@[simp] theorem takeEffective_speed : (takeEffective s).speed = s.speed := by simp [takeEffective]
@[simp] theorem handEffective_speed (v : Nat) : (handEffective v s).speed = s.speed := by
  unfold handEffective; split <;> simp
@[simp] theorem speedEvent_speed (t : SpeedTracker) : (speedEvent t s).speed = t := by simp [speedEvent]
@[simp] theorem takeEffective_duck : (takeEffective s).duck = s.duck := by simp [takeEffective]
@[simp] theorem handEffective_duck (v : Nat) : (handEffective v s).duck = s.duck := by
  unfold handEffective; split <;> simp
@[simp] theorem speedEvent_duck (t : SpeedTracker) : (speedEvent t s).duck = s.duck := by simp [speedEvent]
@[simp] theorem takeEffective_output : (takeEffective s).output = s.output := by simp [takeEffective]
@[simp] theorem handEffective_output (v : Nat) : (handEffective v s).output = s.output := by
  unfold handEffective; split <;> simp
@[simp] theorem speedEvent_output (t : SpeedTracker) : (speedEvent t s).output = s.output := by simp [speedEvent]
@[simp] theorem takeEffective_ringOut : (takeEffective s).ringOut = s.ringOut := by simp [takeEffective]
@[simp] theorem handEffective_ringOut (v : Nat) : (handEffective v s).ringOut = s.ringOut := by
  unfold handEffective; split <;> simp
@[simp] theorem speedEvent_ringOut (t : SpeedTracker) : (speedEvent t s).ringOut = s.ringOut := by simp [speedEvent]
@[simp] theorem takeEffective_pending : (takeEffective s).pending = s.pending := by simp [takeEffective]
@[simp] theorem handEffective_pending (v : Nat) : (handEffective v s).pending = s.pending := by
  unfold handEffective; split <;> simp
@[simp] theorem speedEvent_pending (t : SpeedTracker) : (speedEvent t s).pending = s.pending := by simp [speedEvent]
@[simp] theorem takeEffective_gain_cabin : (takeEffective s).gain.cabin = s.gain.cabin := by simp [takeEffective]
@[simp] theorem handEffective_gain_cabin (v : Nat) : (handEffective v s).gain.cabin = s.gain.cabin := by
  unfold handEffective; split <;> simp
@[simp] theorem speedEvent_gain_cabin (t : SpeedTracker) : (speedEvent t s).gain.cabin = s.gain.cabin := by simp [speedEvent]
@[simp] theorem takeEffective_gain_mutes : (takeEffective s).gain.mutes = s.gain.mutes := by simp [takeEffective]
@[simp] theorem handEffective_gain_mutes (v : Nat) : (handEffective v s).gain.mutes = s.gain.mutes := by
  unfold handEffective; split <;> simp
@[simp] theorem speedEvent_gain_mutes (t : SpeedTracker) : (speedEvent t s).gain.mutes = s.gain.mutes := by simp [speedEvent]
@[simp] theorem takeEffective_equaliser_programs : (takeEffective s).equaliser.programs = s.equaliser.programs := by simp [takeEffective]
@[simp] theorem handEffective_equaliser_programs (v : Nat) : (handEffective v s).equaliser.programs = s.equaliser.programs := by
  unfold handEffective; split <;> simp
@[simp] theorem speedEvent_equaliser_programs (t : SpeedTracker) : (speedEvent t s).equaliser.programs = s.equaliser.programs := by simp [speedEvent]
@[simp] theorem takeEffective_notices_enabled : (takeEffective s).notices.enabled = s.notices.enabled := by simp [takeEffective]
@[simp] theorem handEffective_notices_enabled (v : Nat) : (handEffective v s).notices.enabled = s.notices.enabled := by
  unfold handEffective; split <;> simp
@[simp] theorem speedEvent_notices_enabled (t : SpeedTracker) : (speedEvent t s).notices.enabled = s.notices.enabled := by simp [speedEvent]
@[simp] theorem takeEffective_notices_roll : (takeEffective s).notices.roll = s.notices.roll := by simp [takeEffective]
@[simp] theorem handEffective_notices_roll (v : Nat) : (handEffective v s).notices.roll = s.notices.roll := by
  unfold handEffective; split <;> simp
@[simp] theorem speedEvent_notices_roll (t : SpeedTracker) : (speedEvent t s).notices.roll = s.notices.roll := by simp [speedEvent]
@[simp] theorem takeEffective_userTargets : (takeEffective s).gain.targets.user = s.gain.targets.user := by simp [takeEffective]
@[simp] theorem handEffective_userTargets (v : Nat) : (handEffective v s).gain.targets.user = s.gain.targets.user := by
  unfold handEffective; split <;> simp
@[simp] theorem speedEvent_userTargets (t : SpeedTracker) : (speedEvent t s).gain.targets.user = s.gain.targets.user := by simp [speedEvent]
@[simp] theorem takeEffective_muteTargets : (takeEffective s).gain.targets.mute = s.gain.targets.mute := by simp [takeEffective]
@[simp] theorem handEffective_muteTargets (v : Nat) : (handEffective v s).gain.targets.mute = s.gain.targets.mute := by
  unfold handEffective; split <;> simp
@[simp] theorem speedEvent_muteTargets (t : SpeedTracker) : (speedEvent t s).gain.targets.mute = s.gain.targets.mute := by simp [speedEvent]
@[simp] theorem takeEffective_duckTargets : (takeEffective s).gain.targets.duck = s.gain.targets.duck := by simp [takeEffective]
@[simp] theorem handEffective_duckTargets (v : Nat) : (handEffective v s).gain.targets.duck = s.gain.targets.duck := by
  unfold handEffective; split <;> simp
@[simp] theorem speedEvent_duckTargets (t : SpeedTracker) : (speedEvent t s).gain.targets.duck = s.gain.targets.duck := by simp [speedEvent]

/-! ### A channel load -/

theorem onlyPages_askZonePage {ask : Chan → Page → State → State} (h : ∀ c r s, OnlyPagesMove s (ask c r s)) (c : Chan) :
    OnlyPagesMove s (askZonePage ask c s) := h _ _ _

theorem onlyPages_resettleLoad (c : Chan) (z : Zone) : OnlyPagesMove s (resettleLoad c z s) := onlyPages_resettleZones _ _

theorem onlyPages_moveChannel (c : Chan) (z : Zone) : OnlyPagesMove s (moveChannel c z s) :=
  (onlyPages_askZonePage s (fun _ _ _ => onlyPages_pageRequest _ _) c).trans (onlyPages_resettleLoad _ c z)

theorem onlyPages_enableChannel (c : Chan) (z : Zone) (moved : Bool) : OnlyPagesMove s (enableChannel c z moved s) := by
  dsimp only [enableChannel]
  cases moved
  · exact (onlyPages_askZonePage s (fun _ _ _ => onlyPages_requestEnabled _ _) c).trans (onlyPages_resettleLoad _ c z)
  · exact (onlyPages_askZonePage s (fun _ _ _ => onlyPages_requestDisabled _ _) c).trans
      ((onlyPages_askZonePage _ (fun _ _ _ => onlyPages_requestEnabled _ _) c).trans (onlyPages_resettleLoad _ c z))

/-- Disabling a channel moves only pages, but for its output delay. -/
theorem onlyPages_disableChannel (c : Chan) (z : Zone) (moved : Bool) :
    ∃ t, OnlyPagesMove s t ∧ disableChannel c z moved s = emptyDelay c t := by
  dsimp only [disableChannel]
  refine ⟨_, ?_, rfl⟩
  cases moved
  · exact (onlyPages_schedDisable c).trans ((onlyPages_resettleLoad _ c z).trans (onlyPages_zeroActive c))
  · exact (onlyPages_schedDisable c).trans ((onlyPages_askZonePage _ (fun _ _ _ => onlyPages_requestDisabled _ _) c).trans
      ((onlyPages_resettleLoad _ c z).trans (onlyPages_zeroActive c)))

/-- What a load does beyond the record and the channel's targets moves only pages, but that a disable empties the
channel's output delay. -/
theorem loadRecord_cases (c : Chan) (r : ChannelRecord) :
    OnlyPagesMove (storeRecord c r s) (loadRecord c r s) ∨
    (s.channels[c].out.isSome = true ∧ r.out = none ∧
      ∃ t, OnlyPagesMove (storeRecord c r s) t ∧ loadRecord c r s = emptyDelay c t) := by
  dsimp only [loadRecord]
  split
  · rename_i h g
    exact .inr ⟨h, by simpa using g, onlyPages_disableChannel _ _ _ _⟩
  · exact .inl (onlyPages_enableChannel _ _ _ _)
  · left; split
    · exact onlyPages_moveChannel _ _ _
    · exact .refl _
  · left; split
    · exact onlyPages_moveChannel _ _ _
    · exact .refl _

@[simp] theorem storeRecord_pins (c : Chan) (r : ChannelRecord) : (storeRecord c r s).pins = s.pins := by simp [storeRecord]
@[simp] theorem storeRecord_sources (c : Chan) (r : ChannelRecord) : (storeRecord c r s).sources = s.sources := by simp [storeRecord]
@[simp] theorem storeRecord_ramp (c : Chan) (r : ChannelRecord) : (storeRecord c r s).ramp = s.ramp := by simp [storeRecord]
@[simp] theorem storeRecord_speed (c : Chan) (r : ChannelRecord) : (storeRecord c r s).speed = s.speed := by simp [storeRecord]
@[simp] theorem storeRecord_duck (c : Chan) (r : ChannelRecord) : (storeRecord c r s).duck = s.duck := by simp [storeRecord]
@[simp] theorem storeRecord_output (c : Chan) (r : ChannelRecord) : (storeRecord c r s).output = s.output := by simp [storeRecord]
@[simp] theorem storeRecord_ringOut (c : Chan) (r : ChannelRecord) : (storeRecord c r s).ringOut = s.ringOut := by simp [storeRecord]
@[simp] theorem storeRecord_pending (c : Chan) (r : ChannelRecord) : (storeRecord c r s).pending = s.pending := by simp [storeRecord]
@[simp] theorem storeRecord_port (c : Chan) (r : ChannelRecord) : (storeRecord c r s).port = s.port := by simp [storeRecord]
@[simp] theorem storeRecord_sched (c : Chan) (r : ChannelRecord) : (storeRecord c r s).sched = s.sched := by simp [storeRecord]
@[simp] theorem storeRecord_equaliser (c : Chan) (r : ChannelRecord) : (storeRecord c r s).equaliser = s.equaliser := by simp [storeRecord]
@[simp] theorem storeRecord_notices (c : Chan) (r : ChannelRecord) : (storeRecord c r s).notices = s.notices := by simp [storeRecord]
@[simp] theorem storeRecord_gain_cabin (c : Chan) (r : ChannelRecord) : (storeRecord c r s).gain.cabin = s.gain.cabin := by simp [storeRecord]
@[simp] theorem storeRecord_gain_mutes (c : Chan) (r : ChannelRecord) : (storeRecord c r s).gain.mutes = s.gain.mutes := by simp [storeRecord]
@[simp] theorem storeRecord_gain_zones (c : Chan) (r : ChannelRecord) : (storeRecord c r s).gain.zones = s.gain.zones := by simp [storeRecord]
@[simp] theorem storeRecord_gain_targets_duck (c : Chan) (r : ChannelRecord) : (storeRecord c r s).gain.targets.duck = s.gain.targets.duck := by simp [storeRecord]
@[simp] theorem storeRecord_channels (c : Chan) (r : ChannelRecord) : (storeRecord c r s).channels = s.channels.set c r := by
  simp [storeRecord]
@[simp] theorem loadRecord_channels (c : Chan) (r : ChannelRecord) : (loadRecord c r s).channels = s.channels.set c r := by
  rcases loadRecord_cases s c r with h | ⟨_, _, t, h, e⟩
  · simp [h.channels]
  · simp [e, h.channels]
@[simp] theorem loadRecord_pins (c : Chan) (r : ChannelRecord) : (loadRecord c r s).pins = s.pins := by
  rcases loadRecord_cases s c r with h | ⟨_, _, t, h, e⟩
  · simp [h.pins]
  · simp [e, h.pins]
@[simp] theorem loadRecord_sources (c : Chan) (r : ChannelRecord) : (loadRecord c r s).sources = s.sources := by
  rcases loadRecord_cases s c r with h | ⟨_, _, t, h, e⟩
  · simp [h.sources]
  · simp [e, h.sources]
@[simp] theorem loadRecord_ramp (c : Chan) (r : ChannelRecord) : (loadRecord c r s).ramp = s.ramp := by
  rcases loadRecord_cases s c r with h | ⟨_, _, t, h, e⟩
  · simp [h.ramp]
  · simp [e, h.ramp]
@[simp] theorem loadRecord_speed (c : Chan) (r : ChannelRecord) : (loadRecord c r s).speed = s.speed := by
  rcases loadRecord_cases s c r with h | ⟨_, _, t, h, e⟩
  · simp [h.speed]
  · simp [e, h.speed]
@[simp] theorem loadRecord_duck (c : Chan) (r : ChannelRecord) : (loadRecord c r s).duck = s.duck := by
  rcases loadRecord_cases s c r with h | ⟨_, _, t, h, e⟩
  · simp [h.duck]
  · simp [e, h.duck]
@[simp] theorem loadRecord_output (c : Chan) (r : ChannelRecord) : (loadRecord c r s).output = s.output := by
  rcases loadRecord_cases s c r with h | ⟨_, _, t, h, e⟩
  · simp [h.output]
  · simp [e, h.output]
@[simp] theorem loadRecord_ringOut (c : Chan) (r : ChannelRecord) : (loadRecord c r s).ringOut = s.ringOut := by
  rcases loadRecord_cases s c r with h | ⟨_, _, t, h, e⟩
  · simp [h.ringOut]
  · simp [e, h.ringOut]
@[simp] theorem loadRecord_pending (c : Chan) (r : ChannelRecord) : (loadRecord c r s).pending = s.pending := by
  rcases loadRecord_cases s c r with h | ⟨_, _, t, h, e⟩
  · simp [h.pending]
  · simp [e, h.pending]
@[simp] theorem loadRecord_gain_cabin (c : Chan) (r : ChannelRecord) : (loadRecord c r s).gain.cabin = s.gain.cabin := by
  rcases loadRecord_cases s c r with h | ⟨_, _, t, h, e⟩
  · simp [h.gain]
  · simp [e, h.gain]
@[simp] theorem loadRecord_gain_mutes (c : Chan) (r : ChannelRecord) : (loadRecord c r s).gain.mutes = s.gain.mutes := by
  rcases loadRecord_cases s c r with h | ⟨_, _, t, h, e⟩
  · simp [h.gain]
  · simp [e, h.gain]
@[simp] theorem loadRecord_gain_zones (c : Chan) (r : ChannelRecord) : (loadRecord c r s).gain.zones = s.gain.zones := by
  rcases loadRecord_cases s c r with h | ⟨_, _, t, h, e⟩
  · simp [h.gain]
  · simp [e, h.gain]
@[simp] theorem loadRecord_gain_targets_duck (c : Chan) (r : ChannelRecord) : (loadRecord c r s).gain.targets.duck = s.gain.targets.duck := by
  rcases loadRecord_cases s c r with h | ⟨_, _, t, h, e⟩
  · simp [h.gain]
  · simp [e, h.gain]
@[simp] theorem loadRecord_equaliser_programs (c : Chan) (r : ChannelRecord) : (loadRecord c r s).equaliser.programs = s.equaliser.programs := by
  rcases loadRecord_cases s c r with h | ⟨_, _, t, h, e⟩
  · simp [h.programs]
  · simp [e, h.programs]
@[simp] theorem loadRecord_notices_enabled (c : Chan) (r : ChannelRecord) : (loadRecord c r s).notices.enabled = s.notices.enabled := by
  rcases loadRecord_cases s c r with h | ⟨_, _, t, h, e⟩
  · simp [h.enabled]
  · simp [e, h.enabled]
@[simp] theorem loadRecord_notices_roll (c : Chan) (r : ChannelRecord) : (loadRecord c r s).notices.roll = s.notices.roll := by
  rcases loadRecord_cases s c r with h | ⟨_, _, t, h, e⟩
  · simp [h.roll]
  · simp [e, h.roll]
@[simp] theorem loadRecord_port_lock (c : Chan) (r : ChannelRecord) : (loadRecord c r s).port.lock = s.port.lock := by
  rcases loadRecord_cases s c r with h | ⟨_, _, t, h, e⟩
  · simp [h.port]
  · simp [e, h.port]
@[simp] theorem loadRecord_port_misses (c : Chan) (r : ChannelRecord) : (loadRecord c r s).port.misses = s.port.misses := by
  rcases loadRecord_cases s c r with h | ⟨_, _, t, h, e⟩
  · simp [h.port]
  · simp [e, h.port]
@[simp] theorem loadRecord_port_held (c : Chan) (r : ChannelRecord) : (loadRecord c r s).port.held = s.port.held := by
  rcases loadRecord_cases s c r with h | ⟨_, _, t, h, e⟩
  · simp [h.port]
  · simp [e, h.port]
@[simp] theorem loadRecord_port_assembler (c : Chan) (r : ChannelRecord) : (loadRecord c r s).port.assembler = s.port.assembler := by
  rcases loadRecord_cases s c r with h | ⟨_, _, t, h, e⟩
  · simp [h.port]
  · simp [e, h.port]
@[simp] theorem loadRecord_port_sender (c : Chan) (r : ChannelRecord) : (loadRecord c r s).port.sender = s.port.sender := by
  rcases loadRecord_cases s c r with h | ⟨_, _, t, h, e⟩
  · simp [h.port]
  · simp [e, h.port]
@[simp] theorem loadRecord_port_address (c : Chan) (r : ChannelRecord) : (loadRecord c r s).port.address = s.port.address := by
  rcases loadRecord_cases s c r with h | ⟨_, _, t, h, e⟩
  · simp [h.port]
  · simp [e, h.port]
@[simp] theorem loadRecord_port_twin (c : Chan) (r : ChannelRecord) : (loadRecord c r s).port.twin = s.port.twin := by
  rcases loadRecord_cases s c r with h | ⟨_, _, t, h, e⟩
  · simp [h.port]
  · simp [e, h.port]

/-! ### The owners -/

/-- The channel records after a command: only SET_CHANNEL_TRIM and LOAD_CHANNEL change one (R42, R22). -/
def channelsAfter (c : Command) (chs : Vector ChannelRecord 24) (srcs : Vector (Option AudioSlot) 8) :
    Vector ChannelRecord 24 :=
  match c with
  | .setChannelTrim i trim =>
    match toChannel i with
    | some n => chs.set n { chs[n] with trim := clamp (-96) 96 trim.toInt }
    | none => chs
  | .loadChannel w taps =>
    if 4 < taps.length then chs
    else
      match toChannel w.channel, toTaps taps with
      | some n, some ts =>
        let r := toRecord w ts
        if (r.out.any fun k => (List.finRange 24).any fun c : Chan => !only n c && chs[c].out == some k) ||
            (r.out.any fun k => srcs.toList.any fun x => x == some k) then chs
        else chs.set n r
      | _, _ => chs
  | _ => chs

/-- What a command leaves as it was, and what it makes of the channel records. -/
structure CommandFrame (c : Command) (s t : State) : Prop where
  pins : t.pins = s.pins
  ringOut : t.ringOut = s.ringOut
  pending : t.pending = s.pending
  lock : t.port.lock = s.port.lock
  misses : t.port.misses = s.port.misses
  assembler : t.port.assembler = s.port.assembler
  sender : t.port.sender = s.port.sender
  address : t.port.address = s.port.address
  twin : t.port.twin = s.port.twin
  channels : t.channels = channelsAfter c s.channels s.sources
  currents : t.ramp.currents = s.ramp.currents
  duck : t.duck = s.duck

theorem takeLoadSdvCurve_cases (z : Zone) (points : List BreakpointWord) :
    (takeLoadSdvCurve z points s).state = s ∨ ∃ curve, (takeLoadSdvCurve z points s).state =
      reviewPage z (recomputeSpeed (inZone (setZone z (evalSdv s.speed.effective
        { s.gain.zones.get z with sdv := curve }) s) z)
        (setZone z (evalSdv s.speed.effective { s.gain.zones.get z with sdv := curve }) s)) := by
  dsimp only [takeLoadSdvCurve]
  split
  · exact .inl rfl
  · split
    · exact .inl rfl
    · exact .inr ⟨_, rfl⟩

/-- Every command has this frame. -/
theorem takeCommand_frame (z : Zone) (c : Command) : CommandFrame c s (takeCommand z s c).state := by
  cases c with
  | setChannelTrim i trim =>
    simp only [takeCommand, takeSetChannelTrim]
    cases h : toChannel i <;> constructor <;> simp [done, channelsAfter, h]
  | setChannelMute i m =>
    simp only [takeCommand, takeSetChannelMute]
    cases h : toChannel i <;> constructor <;> simp [done, channelsAfter]
  | setVolume step =>
    simp only [takeCommand, takeSetVolume]
    split <;> constructor <;> simp [done, channelsAfter, storeStep]
  | setRamp l p a b =>
    simp only [takeCommand, takeSetRamp]
    split <;> constructor <;> simp [done, channelsAfter]
  | vehicleState v b =>
    simp only [takeCommand, takeVehicleState]
    split <;> constructor <;> simp [done, channelsAfter]
  | readTable a b =>
    simp only [takeCommand, takeReadTable]
    split <;> constructor <;> simp [done, answerData, channelsAfter]
  | loadSdvCurve points =>
    simp only [takeCommand]
    rcases takeLoadSdvCurve_cases s z points with h | ⟨_, h⟩ <;> constructor <;> simp [h, channelsAfter]
  | loadSource i p k =>
    simp only [takeCommand, takeLoadSource]
    split
    · split <;> constructor <;> simp [done, channelsAfter, storeSource]
    · constructor <;> simp [done, channelsAfter]
  | loadChannel w taps =>
    simp only [takeCommand, takeLoadChannel]
    split
    · rename_i h4
      constructor <;> simp [done, channelsAfter, h4]
    · rename_i h4
      split
      · rename_i n ts hn hts
        split
        · rename_i hc
          have e : channelsAfter (.loadChannel w taps) s.channels s.sources = s.channels := by
            simp only [channelsAfter, if_neg h4, hn, hts]
            exact if_pos hc
          constructor <;> simp [done, e]
        · rename_i hc
          have e : channelsAfter (.loadChannel w taps) s.channels s.sources = s.channels.set n (toRecord w ts) := by
            simp only [channelsAfter, if_neg h4, hn, hts]
            exact if_neg hc
          constructor <;> simp [done, e]
      · rename_i hne
        constructor <;> simp [done, channelsAfter, h4]
  | loadSection i k =>
    simp only [takeCommand, takeLoadSection]
    split
    · split
      · constructor <;> simp [done, channelsAfter]
      · split <;> constructor <;> simp [done, channelsAfter]
    · constructor <;> simp [done, channelsAfter]
  | loadProgram p i es =>
    simp only [takeCommand, takeLoadProgram]
    split
    · constructor <;> simp [done, channelsAfter]
    · split
      · split
        · constructor <;> simp [done, channelsAfter]
        · split <;> constructor <;> simp [done, channelsAfter]
      · constructor <;> simp [done, channelsAfter]
  | selectPage p =>
    simp only [takeCommand, takeSelectPage]
    split <;> constructor <;> simp [done, channelsAfter]
  | rollCallAssign m b =>
    simp only [takeCommand, takeRollCallAssign]
    split
    · constructor <;> simp [done, channelsAfter]
    · split <;> constructor <;> simp [done, channelsAfter]
    · split <;> constructor <;> simp [done, channelsAfter]
    · constructor <;> simp [done, channelsAfter]
  | _ =>
    constructor <;> simp [takeCommand, takeAssignAddress, takeDeviceReset, takeSetBalance, takeSetFade,
      takeLoadBalanceCurve, takeLoadFadeCurve, takeStepVolume, takeLoadVolumeCurve, takeSetZoneMute, takeSetDuck,
      takeSetZoneOptions, takeSetSpeedPolicy, takeSetNoticeEnable, takeStatusPoll, takeRollCall, takeReadMeters, done,
      answerData, channelsAfter, storeStep]

end Sys2Proof.Machine
end

