-- ==== Sys2Proof/Laws/Deliver.lean ====
section
/-! SUPPORT. When a ring command is taken, and what judging it can do: the lemmas that every row of a ring command goes
through. -/

namespace Sys2Proof.Machine

variable {s : State} {r : Route} {c : Command}

theorem not_broadcast_of_answersTo {p : RingPort} {a : BitVec 5} (h : answersTo p a = true) : a ≠ broadcast := by
  intro he
  simp [answersTo, he] at h

theorem Ready.listening (h : Ready s r) : listening s = true := by
  simp [Machine.listening, h.pin, h.lock]

theorem ReadyBroadcast.listening (h : ReadyBroadcast s r) : Machine.listening s = true := by
  simp [Machine.listening, h.pin, h.lock]

/-- Not listening: the reset pin is held or the ring is not LOCKED. -/
theorem listening_eq_false (h : s.pins.reset = true ∨ s.port.lock ≠ .locked) : listening s = false := by
  rcases h with h | h <;> simp [listening, h]

/-- An addressed command, taken: its owner takes it and the answer starts. -/
theorem deliver_ready (h : Ready s r) (c : Command) :
    deliver r c s =
      (takeCommand (routeZone s.port r) s c).state.answering (takeCommand (routeZone s.port r) s c).code
        (commandCode c).1 (commandCode c).2 (takeCommand (routeZone s.port r) s c).data
        (takeCommand (routeZone s.port r) s c).after := by
  have hb := not_broadcast_of_answersTo h.address
  simp [deliver, h.listening, h.address, judgeMessage, hb, h.quiet, Turn.finish, answerMessage, startAnswer, setSender,
    State.answering]

/-- A broadcast command that carries no data words, taken: its owner takes it and what it defers follows at once. -/
theorem deliver_broadcast (h : ReadyBroadcast s r) (hd : isDataCode (commandCode c).1 (commandCode c).2 = false) :
    deliver r c s =
      (applyDeferred (takeCommand (if r.zoneBit then .b else .a) s c).after
        (takeCommand (if r.zoneBit then .b else .a) s c).state).finish := by
  have hb : r.address = broadcast := h.address
  have hz : routeZone s.port r = if r.zoneBit then .b else .a := by simp [routeZone, hb]
  simp [deliver, h.listening, hb, judgeMessage, broadcastMessage, hd, hz]

/-- A broadcast command that asks for data words is dropped. -/
theorem deliver_broadcast_data (h : r.address = broadcast) (hd : isDataCode (commandCode c).1 (commandCode c).2 = true) :
    deliver r c s = s := by
  simp [deliver, h, judgeMessage, broadcastMessage, hd, Turn.finish]

/-- A command the part does not hear changes nothing. -/
theorem deliver_unheard (h : listening s = false ∨ (r.address ≠ broadcast ∧ answersTo s.port r.address = false)) :
    deliver r c s = s := by
  rcases h with h | ⟨h, g⟩ <;> simp_all [deliver]

/-- An addressed command that finds the sender ANSWERING is discarded with CTRL_LOST. -/
theorem deliver_answering (hl : listening s = true) (ha : answersTo s.port r.address = true)
    (hs : ∃ w rest d, s.port.sender = .answering w rest d) : deliver r c s = notify .ctrlLost s := by
  obtain ⟨w, rest, d, hs⟩ := hs
  simp [deliver, hl, ha, judgeMessage, not_broadcast_of_answersTo ha, hs, Turn.finish]

/-- A command whose owner leaves `t z` with code `k z`, no data words and nothing deferred, completes so by every route. -/
theorem completes_of_take {i : Route → Instr} {k : Zone → ResultCode} {t : Zone → State} (c : Command)
    (hi : ∀ r, exec (i r) s = .next (deliver r c s)) (hd : isDataCode (commandCode c).1 (commandCode c).2 = false)
    (h : ∀ z, takeCommand z s c = done (k z) (t z)) : Completes i (commandCode c).1 (commandCode c).2 s k t where
  addressed r hr := by rw [hi, deliver_ready hr, h]; rfl
  broadcast r hr := by rw [hi, deliver_broadcast hr hd, h]; rfl

/-- The same for a command that hands page requests on. -/
theorem completesAskingPages_of_take {i : Route → Instr} {k : Zone → ResultCode} {u : Zone → State} (c : Command)
    (hi : ∀ r, exec (i r) s = .next (deliver r c s)) (hd : isDataCode (commandCode c).1 (commandCode c).2 = false)
    (h : ∀ z, ∃ t, takeCommand z s c = done (k z) t ∧ MovesPages s (u z) t) :
    CompletesAskingPages i (commandCode c).1 (commandCode c).2 s k u where
  addressed r hr := by
    obtain ⟨t, ht, hm⟩ := h (routeZone s.port r)
    exact ⟨t, by rw [hi, deliver_ready hr, ht]; rfl, hm⟩
  broadcast r hr := by
    obtain ⟨t, ht, hm⟩ := h (if r.zoneBit then .b else .a)
    exact ⟨t, by rw [hi, deliver_broadcast hr hd, ht]; rfl, hm⟩

end Sys2Proof.Machine
end

