-- ==== Sys2Proof/Laws/Kept.lean ====
section
/-! SUPPORT. An invariant of every step, from what it must be kept by: `Kept P` lists the acts that the rows are made of,
and `step_keeps` composes them, row by row, once for every invariant. -/

namespace Sys2Proof.Machine

/-- `P` is kept by every act the rows are made of. The audio of a frame runs on a view in which every channel that is
disabled in the state is disabled too. -/
structure Kept (P : State → Prop) : Prop where
  blocksReset : ∀ pins a tw o q, P (State.blocksReset pins a tw o q)
  pins : ∀ s p, P s → P { s with pins := p }
  ringOut : ∀ s o, P s → P { s with ringOut := o }
  pending : ∀ s q, P s → P { s with pending := q }
  notify : ∀ s k, P s → P (notify k s)
  assembler : ∀ s a, P s → P (setAssembler a s)
  sender : ∀ s a, P s → P (setSender a s)
  address : ∀ s a tw, P s → P { s with port.address := a, port.twin := tw }
  lock : ∀ s l n, P s → P (setLock l n s)
  command : ∀ s z c, P s → P (takeCommand z s c).state
  emptied : ∀ s, P s → P { s with port.held := Vector.replicate 8 0, port.delays := Vector.replicate 24 Delay.empty }
  lost : ∀ s, P s → P (zeroAllChains (schedLockLoss s))
  relocked : ∀ s, P s → P (setSpeed { s.speed with counter := s.speed.timeout * 480 } (rampRelock s))
  audio : ∀ s x r, P s → r.state = s → (∀ c : Chan, s.channels[c].out = none → x.view[c].out = none) →
    P (audioAct x r).state
  meters : ∀ s view runs, P s → P (metersAct view runs s)
  fades : ∀ s view step, P s → P (fadesAct view step s)
  completes : ∀ s i f, P s → s.sched.slots[i] = some f → f.k + 1 = f.length → P (fadeCompletes i f s)
  grants : ∀ s i d rest, P s → s.sched.queue = d :: rest → s.sched.slots[i] = none →
    P (resettle s.channels[d].zone (grantHead i s))
  tick : ∀ s l, P s → P (tick l s)
  setLaneCount : ∀ s l n, P s → 1 ≤ n → n ≤ (s.ramp.lanes.get l).count →
    P (setLane l { s.ramp.lanes.get l with count := n } s)
  expiry : ∀ s, P s → P (expiry s)
  countDown : ∀ s n, P s → n ≤ s.speed.counter → P (setSpeed { s.speed with counter := n } s)
  duckSample : ∀ s, P s → P (takeDuckSample s)
  duckCount : ∀ s n, P s → 1 ≤ n → n ≤ s.duck.count → P { s with duck.count := n }

namespace Kept

variable {P : State → Prop}

theorem mapOut (K : Kept P) (s : State) (g : OutFrame → OutFrame) (h : P s) : P (mapOut g s) := K.ringOut _ _ h

theorem passUntouched (K : Kept P) (s : State) (f : RingFrame) (h : P s) : P (passUntouched f s) := K.ringOut _ _ h

theorem deviceReset (K : Kept P) (s : State) : P (Machine.deviceReset s) := K.blocksReset _ _ _ _ _

theorem finish (K : Kept P) (t : Turn) (h : P t.state) : P t.finish := by
  unfold Turn.finish; split
  · exact K.deviceReset _
  · exact h

theorem applyDeferred (K : Kept P) (s : State) (d : Deferred) (h : P s) : P (Machine.applyDeferred d s).state := by
  cases d with
  | nothing => exact h
  | newAddress a tw => exact K.address _ _ _ h
  | deviceReset => exact h

theorem leaveAnswering (K : Kept P) (s : State) (h : P s) : P (Machine.leaveAnswering s).state := by
  unfold Machine.leaveAnswering; split
  · exact h
  · exact K.applyDeferred _ _ (K.sender _ _ h)

theorem answerMessage (K : Kept P) (s : State) (r sp c m) (h : P s) : P (Machine.answerMessage r sp c m s) := by
  unfold Machine.answerMessage; split
  · exact K.sender _ _ h
  · exact K.sender _ _ h
  · exact K.sender _ _ (K.command _ _ _ h)

theorem broadcastMessage (K : Kept P) (s : State) (r sp c m) (h : P s) :
    P (Machine.broadcastMessage r sp c m s).state := by
  unfold Machine.broadcastMessage; split
  · exact h
  · exact h
  · split
    · exact h
    · exact K.applyDeferred _ _ (K.command _ _ _ h)

theorem judgeMessage (K : Kept P) (s : State) (r sp c m) (h : P s) : P (Machine.judgeMessage r sp c m s).state := by
  unfold Machine.judgeMessage; split
  · exact K.broadcastMessage _ _ _ _ _ h
  · split
    · exact K.notify _ _ h
    · exact K.answerMessage _ _ _ _ _ h

theorem markRoll (K : Kept P) (s : State) (h : P s) : P (Machine.markRoll s) := by
  unfold Machine.markRoll; split
  · exact h
  · exact K.mapOut _ _ h

theorem completeMessage (K : Kept P) (s : State) (hd ws) (h : P s) : P (Machine.completeMessage hd ws s).state :=
  K.judgeMessage _ _ _ _ _ (K.assembler _ _ h)

theorem startMessage (K : Kept P) (s : State) (hd) (h : P s) : P (Machine.startMessage hd s).state := by
  dsimp only [Machine.startMessage]
  have h' : P (if (hd.route.address == broadcast && isRollCall hd.space hd.command) = true then Machine.markRoll s
      else s) := by
    split
    · exact K.markRoll _ h
    · exact h
  generalize (if (hd.route.address == broadcast && isRollCall hd.space hd.command) = true then Machine.markRoll s
    else s) = u at h' ⊢
  split
  · split
    · exact K.completeMessage _ _ _ h'
    · exact K.assembler _ _ h'
  · split
    · exact K.assembler _ _ h'
    · exact K.assembler _ _ h'

theorem abandonMessage (K : Kept P) (s : State) (h : P s) : P (Machine.abandonMessage s) := by
  unfold Machine.abandonMessage; split
  · exact h
  · exact K.notify _ _ (K.assembler _ _ h)
  · exact K.assembler _ _ h

theorem takePayload (K : Kept P) (s : State) (w) (h : P s) : P (Machine.takePayload w s).state := by
  unfold Machine.takePayload; split
  · exact h
  · split
    · exact K.completeMessage _ _ _ h
    · exact K.assembler _ _ h
  · exact K.assembler _ _ h

theorem takeClear (K : Kept P) (s : State) (h : P s) : P (Machine.takeClear s).state :=
  K.leaveAnswering _ (K.assembler _ _ h)

theorem takeControlWord (K : Kept P) (s : State) (w) (h : P s) : P (Machine.takeControlWord w s).state := by
  unfold Machine.takeControlWord; split
  · exact h
  · exact K.startMessage _ _ (K.abandonMessage _ h)
  · exact K.takePayload _ _ h
  · exact K.takeClear _ h

theorem missSync (K : Kept P) (s : State) (h : P s) : P (Machine.missSync s).state :=
  K.leaveAnswering _ (K.abandonMessage _ h)

theorem loseLock (K : Kept P) (s : State) (h : P s) : P (Machine.loseLock s).state :=
  K.lost _ (K.missSync _ (K.emptied _ (K.lock _ _ _ h)))

theorem noSync (K : Kept P) (s : State) (h : P s) : P (Machine.noSync s) := by
  unfold Machine.noSync; split
  · exact h
  · exact K.lock _ _ _ h
  · split
    · exact K.finish _ (K.missSync _ (K.lock _ _ _ h))
    · exact K.finish _ (K.loseLock _ h)

theorem relock (K : Kept P) (s : State) (h : P s) : P (Machine.relock s) :=
  K.notify _ _ (K.relocked _ (K.lock _ _ _ h))

/-! ### One frame -/

theorem writeAnswer (K : Kept P) (s : State) (h : P s) : P (Machine.writeAnswer s).state := by
  unfold Machine.writeAnswer; split
  · exact h
  · split
    · exact K.leaveAnswering _ (K.mapOut _ _ h)
    · exact K.sender _ _ (K.mapOut _ _ h)

theorem controlAct (K : Kept P) (s : State) (c) (hc : ∀ s, P s → P (c s).state) (h : P s) :
    P (Machine.controlAct c s).state := by
  unfold Machine.controlAct; split
  · exact hc _ h
  · exact K.writeAnswer _ (hc _ h)

theorem requestAct (K : Kept P) (s : State) (h : P s) : P (Machine.requestAct s) := by
  unfold Machine.requestAct; split
  · exact K.mapOut _ _ h
  · exact h

theorem countLane (K : Kept P) (s : State) (l) (h : P s) : P (Machine.countLane l s) := by
  simp only [Machine.countLane]; split
  · exact K.tick _ _ h
  · exact K.setLaneCount _ _ _ h (by omega) (by omega)

theorem countStaleness (K : Kept P) (s : State) (h : P s) : P (Machine.countStaleness s) := by
  unfold Machine.countStaleness; split
  · split
    · exact K.expiry _ h
    · exact K.countDown _ _ h (by omega)
  · exact h

theorem countDuck (K : Kept P) (s : State) (h : P s) : P (Machine.countDuck s) := by
  unfold Machine.countDuck; split
  · exact K.duckSample _ h
  · exact K.duckCount _ _ h (by omega) (by omega)

theorem runAct (K : Kept P) (x : FrameCtx) (r : FrameRun) (a : FrameAct) (hc : ∀ s, P s → P (x.control s).state)
    (h : P r.state) : P (Machine.runAct x r a).state := by
  cases a with
  | control => exact K.controlAct _ _ hc h
  | request => exact K.requestAct _ h
  | meters => exact K.meters _ _ _ h
  | fades => exact K.fades _ _ _ h
  | count l => exact K.countLane _ _ h
  | staleness => exact K.countStaleness _ h
  | duckLine => exact K.countDuck _ h

end Kept

end Sys2Proof.Machine
end

