-- ==== Sys2Proof/Laws/Frame.lean ====
section
/-! SUPPORT. One frame: its plan names every act once, its acts other than the control word leave the routing and the
message assembler alone, and what every act keeps the frame keeps; from this, what every row keeps. -/

namespace Sys2Proof.Machine

/-! ### The plan -/

theorem mention_mem (done : List FrameAct) (a b : FrameAct) : b ∈ mention done a ↔ b ∈ done ∨ b = a := by
  unfold mention
  split
  · rename_i h
    have : a ∈ done := by simpa using h
    grind
  · simp

theorem mention_nodup {done : List FrameAct} (h : done.Nodup) (a : FrameAct) : (mention done a).Nodup := by
  unfold mention
  split
  · exact h
  · rename_i g
    have : a ∉ done := by simpa using g
    rw [List.nodup_append]
    exact ⟨h, List.nodup_singleton a, by grind⟩

theorem mention_foldl_mem (l done : List FrameAct) (b : FrameAct) :
    b ∈ l.foldl mention done ↔ b ∈ done ∨ b ∈ l := by
  induction l generalizing done with
  | nil => simp
  | cons a l ih => rw [List.foldl_cons, ih, mention_mem]; simp [or_assoc]

theorem mention_foldl_nodup (l : List FrameAct) {done : List FrameAct} (h : done.Nodup) :
    (l.foldl mention done).Nodup := by
  induction l generalizing done with
  | nil => exact h
  | cons a l ih => exact ih (mention_nodup h a)

/-- The plan names every act. -/
theorem mem_plan (o : FrameOrder) (a : FrameAct) : a ∈ plan o := by
  unfold plan
  rw [mention_foldl_mem]
  right
  rw [List.mem_append]
  right
  cases a <;> first | decide | (rename_i l; cases l <;> decide)

/-- The plan names no act twice. -/
theorem plan_nodup (o : FrameOrder) : (plan o).Nodup := mention_foldl_nodup _ List.nodup_nil

/-! ### What the control word reads of the state -/

/-- Two states on which a control word makes the same of the channel records. -/
structure SameControl (s t : State) : Prop where
  channels : s.channels = t.channels
  sources : s.sources = t.sources
  assembler : s.port.assembler = t.port.assembler
  sender : s.port.sender = t.port.sender
  address : s.port.address = t.port.address
  twin : s.port.twin = t.port.twin

variable {s t : State}

@[simp] theorem applyDeferred_channels (d : Deferred) : (applyDeferred d s).state.channels = s.channels := by
  cases d <;> rfl

@[simp] theorem leaveAnswering_channels : (leaveAnswering s).state.channels = s.channels := by
  unfold leaveAnswering; split <;> simp

@[simp] theorem writeAnswer_channels : (writeAnswer s).state.channels = s.channels := by
  unfold writeAnswer; split
  · rfl
  · split <;> simp

theorem judgeMessage_channels (h : SameControl s t) (r sp c m) :
    (judgeMessage r sp c m s).state.channels = (judgeMessage r sp c m t).state.channels := by
  unfold judgeMessage
  split
  · unfold broadcastMessage
    split
    · exact h.channels
    · exact h.channels
    · split
      · exact h.channels
      · simp [(takeCommand_frame _ _ _).channels, h.channels, h.sources]
  · rw [h.sender]
    split
    · simp [h.channels]
    · unfold answerMessage
      split
      · exact h.channels
      · exact h.channels
      · simp [startAnswer, (takeCommand_frame _ _ _).channels, h.channels, h.sources]

theorem SameControl.setAssembler (h : SameControl s t) (a) : SameControl (setAssembler a s) (setAssembler a t) :=
  ⟨h.channels, h.sources, rfl, h.sender, h.address, h.twin⟩

theorem SameControl.ofNotify (s : State) (k) : SameControl (notify k s) s := by constructor <;> simp

theorem SameControl.refl (s : State) : SameControl s s := ⟨rfl, rfl, rfl, rfl, rfl, rfl⟩

theorem SameControl.symm (h : SameControl s t) : SameControl t s :=
  ⟨h.channels.symm, h.sources.symm, h.assembler.symm, h.sender.symm, h.address.symm, h.twin.symm⟩

theorem SameControl.trans {u : State} (h : SameControl s t) (g : SameControl t u) : SameControl s u :=
  ⟨h.channels.trans g.channels, h.sources.trans g.sources, h.assembler.trans g.assembler, h.sender.trans g.sender,
   h.address.trans g.address, h.twin.trans g.twin⟩

theorem SameControl.abandonMessage (h : SameControl s t) : SameControl (abandonMessage s) (abandonMessage t) := by
  unfold Machine.abandonMessage
  rw [h.assembler]
  split
  · exact h
  · exact (SameControl.ofNotify _ _).trans ((h.setAssembler .idle).trans (SameControl.ofNotify _ _).symm)
  · exact h.setAssembler _

theorem SameControl.markRoll (s : State) : SameControl (markRoll s) s := by
  unfold Machine.markRoll
  split
  · exact .refl s
  · exact ⟨rfl, rfl, rfl, rfl, rfl, rfl⟩

theorem startMessage_channels (h : SameControl s t) (hd) :
    (startMessage hd s).state.channels = (startMessage hd t).state.channels := by
  dsimp only [startMessage]
  have h' : SameControl
      (if (hd.route.address == Machine.broadcast && isRollCall hd.space hd.command) = true then Machine.markRoll s else s)
      (if (hd.route.address == Machine.broadcast && isRollCall hd.space hd.command) = true then Machine.markRoll t else t) := by
    split
    · exact (SameControl.markRoll s).trans (h.trans (SameControl.markRoll t).symm)
    · exact h
  generalize (if (hd.route.address == Machine.broadcast && isRollCall hd.space hd.command) = true then Machine.markRoll s
    else s) = u at h' ⊢
  generalize (if (hd.route.address == Machine.broadcast && isRollCall hd.space hd.command) = true then Machine.markRoll t
    else t) = v at h' ⊢
  have ha : ∀ a, answersTo u.port a = answersTo v.port a := by
    intro a; simp only [answersTo, h'.address, h'.twin]
  rw [ha]
  split
  · split
    · exact judgeMessage_channels (h'.setAssembler _) _ _ _ _
    · exact h'.channels
  · split <;> exact h'.channels

theorem takePayload_channels (h : SameControl s t) (w) :
    (takePayload w s).state.channels = (takePayload w t).state.channels := by
  unfold takePayload
  rw [h.assembler]
  split
  · exact h.channels
  · split
    · exact judgeMessage_channels (h.setAssembler _) _ _ _ _
    · exact h.channels
  · exact h.channels

theorem takeControlWord_channels (h : SameControl s t) (w) :
    (takeControlWord w s).state.channels = (takeControlWord w t).state.channels := by
  unfold takeControlWord
  split
  · exact h.channels
  · exact startMessage_channels h.abandonMessage _
  · exact takePayload_channels h _
  · simp [takeClear, h.channels]

theorem controlAct_channels (c : State → Turn) (s : State) : (controlAct c s).state.channels = (c s).state.channels := by
  unfold controlAct
  split <;> simp

/-! ### Acts other than the control word -/

@[simp] theorem mapOut_channels' (g) : (mapOut g s).channels = s.channels := rfl

theorem SameControl.ofOnlyPages (h : OnlyPagesMove s t) : SameControl t s :=
  ⟨h.channels, h.sources, by rw [h.port], by rw [h.port], by rw [h.port], by rw [h.port]⟩

theorem onlyPages_completeIfReached (s : State) (i) : OnlyPagesMove s (completeIfReached s i) := by
  unfold completeIfReached
  split
  · exact onlyPages_completeFade _
  · exact .refl s

theorem onlyPages_stepSlots (view step) : OnlyPagesMove s (stepSlots view step s) := by
  unfold stepSlots
  exact onlyPages_sched s _

/-- The crossfade steps and completions of a frame move only pages. -/
theorem onlyPages_fadesAct (view step) : OnlyPagesMove s (fadesAct view step s) := by
  dsimp only [fadesAct]
  have h := onlyPages_stepSlots (s := s) view step
  generalize stepSlots view step s = u at h
  have g := OnlyPagesMove.foldl _ onlyPages_completeIfReached (List.finRange 8) u
  generalize List.foldl completeIfReached u (List.finRange 8) = v at g
  exact h.trans (g.trans (onlyPages_resettleZones _ _))

theorem SameControl.metersAct (view runs) : SameControl (metersAct view runs s) s := by
  dsimp only [Machine.metersAct]
  constructor <;> simp

theorem SameControl.requestAct (s : State) : SameControl (requestAct s) s := by
  unfold Machine.requestAct
  split
  · exact ⟨rfl, rfl, rfl, rfl, rfl, rfl⟩
  · exact .refl s

theorem SameControl.countLane (l) : SameControl (countLane l s) s := by
  dsimp only [Machine.countLane]
  split <;> exact ⟨rfl, rfl, rfl, rfl, rfl, rfl⟩

theorem SameControl.countStaleness (s : State) : SameControl (countStaleness s) s := by
  unfold Machine.countStaleness
  split
  · split
    · constructor <;> simp [expiry]
    · exact ⟨rfl, rfl, rfl, rfl, rfl, rfl⟩
  · exact .refl s

theorem SameControl.countDuck (s : State) : SameControl (countDuck s) s := by
  unfold Machine.countDuck
  split
  · dsimp only [takeDuckSample]
    split
    · constructor <;> simp
    · exact ⟨rfl, rfl, rfl, rfl, rfl, rfl⟩
  · exact ⟨rfl, rfl, rfl, rfl, rfl, rfl⟩

/-- An act that is not the control word leaves what the control word reads. -/
theorem SameControl.runAct (x : FrameCtx) (r : FrameRun) {a : FrameAct} (h : a ≠ .control) :
    SameControl (runAct x r a).state r.state := by
  cases a with
  | control => exact absurd rfl h
  | request => exact .requestAct _
  | meters => exact .metersAct _ _
  | fades => exact .ofOnlyPages (onlyPages_fadesAct _ _)
  | count l => exact .countLane _
  | staleness => exact .countStaleness _
  | duckLine => exact .countDuck _

theorem SameControl.runActs_foldl (x : FrameCtx) (l : List FrameAct) (r : FrameRun) (h : FrameAct.control ∉ l) :
    SameControl ((l.map FrameStep.act).foldl (runStep x) r).state r.state := by
  induction l generalizing r with
  | nil => exact .refl _
  | cons a l ih =>
    simp only [List.map_cons, List.foldl_cons]
    have this : FrameAct.control ≠ a ∧ FrameAct.control ∉ l := by simpa using h
    exact (ih _ this.2).trans (.runAct x r (Ne.symm this.1))

/-! ### What the acts keep the frame keeps -/

namespace Kept

variable {P : State → Prop}

theorem foldActs (K : Kept P) (x : FrameCtx) (hc : ∀ s, P s → P (x.control s).state) (l : List FrameAct) (r : FrameRun)
    (h : P r.state) : P ((l.map FrameStep.act).foldl (runStep x) r).state := by
  induction l generalizing r with
  | nil => exact h
  | cons a l ih => exact ih _ (K.runAct x r a hc h)

theorem not_mem_takeWhile {α : Type} (p : α → Bool) (a : α) (h : p a = false) (l : List α) : a ∉ l.takeWhile p := by
  intro hm
  have := List.mem_takeWhile_imp hm
  simp_all

/-- The steps of a frame keep P, on the view its control word leaves. -/
theorem runActs (K : Kept P) (x : FrameCtx) (order : FrameOrder) (s : State) (hc : ∀ s, P s → P (x.control s).state)
    (hch : ∀ u v, SameControl u v → (x.control u).state.channels = (x.control v).state.channels)
    (hv : x.view = (x.control s).state.channels) (h : P s) :
    P (Machine.runActs x order (changesRouting s (Machine.controlAct x.control s).state) s).state := by
  unfold Machine.runActs schedule
  cases hr : changesRouting s (Machine.controlAct x.control s).state with
  | false =>
    simp only [Bool.false_eq_true, if_false, List.foldl_cons]
    refine K.foldActs x hc _ _ (K.audio s x _ h rfl ?_)
    intro c hn
    unfold changesRouting at hr
    rw [Bool.or_eq_false_iff] at hr
    have := (List.any_eq_false.mp hr.2) c (List.mem_finRange c)
    rw [enabled, enabled, controlAct_channels, ← hv] at this
    simp at this
    exact this hn
  | true =>
    simp only [if_true, List.foldl_append, List.foldl_cons, List.foldl_nil]
    have hctl : FrameAct.control ∉ (((plan order).takeWhile fun a => a != .control).filter fun a => !needsAudio a) := by
      intro hm
      exact not_mem_takeWhile _ _ (by decide) _ (List.mem_of_mem_filter hm)
    have h1 := K.foldActs x hc
      (((plan order).takeWhile fun a => a != .control).filter fun a => !needsAudio a)
      { state := s, reset := false, runs := Vector.replicate 24 none } h
    have s1 := SameControl.runActs_foldl x
      (((plan order).takeWhile fun a => a != .control).filter fun a => !needsAudio a)
      { state := s, reset := false, runs := Vector.replicate 24 none } hctl
    generalize List.foldl (runStep x) { state := s, reset := false, runs := Vector.replicate 24 none }
      (List.map FrameStep.act (((plan order).takeWhile fun a => a != .control).filter fun a => !needsAudio a)) = r at h1 s1
    have h2 := K.runAct x r .control hc h1
    have e : (Machine.runAct x r .control).state.channels = x.view := by
      rw [hv, ← hch _ _ s1]
      exact controlAct_channels _ _
    refine K.foldActs x hc _ _ (K.audio _ x _ h2 rfl ?_)
    intro c hn
    rw [← e]
    exact hn

/-- A frame of the sample path keeps P. -/
theorem samplePath (K : Kept P) (control : State → Turn) (out : OutFrame) (slots duckPin order) (s : State)
    (hc : ∀ s, P s → P (control s).state)
    (hch : ∀ u v, SameControl u v → (control u).state.channels = (control v).state.channels) (h : P s) :
    P (Machine.samplePath control out slots duckPin order s) := by
  dsimp only [Machine.samplePath]
  have h0 : P { s with pins.duck := duckPin, ringOut := some out } := K.ringOut _ _ (K.pins _ _ h)
  generalize ({ s with pins.duck := duckPin, ringOut := some out } : State) = u at h0 ⊢
  refine K.finish _ (K.mapOut _ _ ?_)
  have key : ∀ x : FrameCtx, x.control = control → x.view = (Machine.controlAct control u).state.channels →
      P (Machine.runActs x order (changesRouting u (Machine.controlAct control u).state) u).state := by
    intro x hx hv
    subst hx
    exact K.runActs x order u hc hch (hv.trans (controlAct_channels _ _)) h0
  exact key _ rfl rfl

theorem intactFrame (K : Kept P) (f : FrameFields) (duckPin order) (s : State) (h : P s) :
    P (Machine.intactFrame f duckPin order s) :=
  K.samplePath _ _ _ _ _ _ (fun s hs => K.takeControlWord s _ hs) (fun _ _ g => takeControlWord_channels g _) h

theorem damagedPath (K : Kept P) (f : FrameFields) (check duckPin order) (s : State) (h : P s) :
    P (Machine.damagedPath f check duckPin order s) :=
  K.samplePath _ _ _ _ _ _ (fun s hs => K.abandonMessage s hs) (fun _ _ g => g.abandonMessage.channels) h

theorem goodSync (K : Kept P) (g : RingFrame) (path : State → State) (hp : ∀ s, P s → P (path s)) (s : State) (h : P s) :
    P (Machine.goodSync g path s) := by
  unfold Machine.goodSync
  split
  · exact K.passUntouched _ _ h
  · split
    · exact K.passUntouched _ _ (K.lock _ _ _ h)
    · exact hp _ (K.relock _ h)
    · exact hp _ (K.lock _ _ _ h)

theorem deliver (K : Kept P) (r c) (s : State) (h : P s) : P (Machine.deliver r c s) := by
  unfold Machine.deliver
  split
  · exact K.finish _ (K.judgeMessage _ _ _ _ _ h)
  · exact h

theorem rollCallHeader (K : Kept P) (r) (s : State) (h : P s) : P (Machine.rollCallHeader r s) := by
  unfold Machine.rollCallHeader
  split
  · exact K.mapOut _ _ (K.markRoll _ h)
  · exact h

/-- Every row keeps P. -/
theorem exec (K : Kept P) (i : Instr) (s t : State) (h : P s) (e : Machine.exec i s = .next t) : P t := by
  cases i with
  | resetPinAsserted => cases e; exact K.blocksReset _ _ _ _ _
  | resetPinReleased st tw => cases e; exact K.blocksReset _ _ _ _ _
  | syncFound f =>
    cases e
    split
    · exact K.passUntouched _ _ h
    · split
      · exact K.passUntouched _ _ (K.lock _ _ _ h)
      · exact h
      · exact h
  | frame f d o => cases e; exact K.goodSync _ _ (fun s hs => K.intactFrame f d o s hs) _ h
  | damagedFrame f ck d o =>
    cases e
    refine K.goodSync _ _ ?_ _ h
    intro s hs
    split
    · exact K.intactFrame f d o s hs
    · exact K.damagedPath f ck d o s hs
  | syncBad f =>
    cases e
    refine K.passUntouched _ _ ?_
    split
    · exact h
    · exact K.noSync _ h
  | syncMissing =>
    cases e
    refine K.ringOut _ _ ?_
    split
    · exact h
    · exact K.noSync _ h
  | clear =>
    cases e
    split
    · exact K.finish _ (K.takeClear _ h)
    · exact h
  | newAddressTakesEffect =>
    cases e
    split
    · exact K.finish _ (K.leaveAnswering _ h)
    all_goals exact h
  | deviceResetTakesEffect =>
    cases e
    split
    · exact K.finish _ (K.leaveAnswering _ h)
    all_goals exact h
  | fadeComplete i =>
    cases e
    split
    · rename_i f hf
      split
      · rename_i hk
        exact K.completes _ _ _ h hf hk.2
      · exact h
    · exact h
  | queueGrant i =>
    cases e
    split
    · rename_i d rest hq hsl
      split
      · exact K.grants _ _ _ _ h hq hsl
      · exact h
    all_goals exact h
  | laneTick l =>
    cases e
    split
    · exact K.tick _ _ h
    · exact h
  | stalenessExpiry =>
    cases e
    split
    · exact K.expiry _ h
    · exact h
  | duckSample p =>
    cases e
    split
    · exact K.duckSample _ (K.pins _ _ h)
    · exact K.pins _ _ h
  | rollCall r => cases e; exact K.deliver _ _ _ (K.rollCallHeader _ _ h)
  | _ => cases e; exact K.deliver _ _ _ h

end Kept

/-- Every step keeps what its acts keep. -/
theorem step_keeps {P : State → Prop} (K : Kept P) {s t : State} (h : P s) (e : step s = .next t) : P t := by
  unfold step at e
  split at e
  · cases e; exact h
  · exact K.exec _ _ _ (K.pending _ _ h) e

end Sys2Proof.Machine
end

