-- ==== Sys2Proof/Laws/Owners.lean ====
section
/-! SUPPORT. What the ring commands can do to one record each, where the common frame of Commands.lean leaves it open: the
meters, the Speed Tracker, the lane settings and the source records; and the recomputed targets, channel by channel. -/

namespace Sys2Proof.Machine

/-! ### Reading back what was set -/

theorem PerZone.get_set {α : Type} (v : PerZone α) (z y : Zone) (x : α) :
    (v.set z x).get y = if y = z then x else v.get y := by
  cases z <;> cases y <;> rfl

theorem PerLane.get_set {α : Type} (v : PerLane α) (l m : Lane) (x : α) :
    (v.set l x).get m = if m = l then x else v.get m := by
  cases l <;> cases m <;> rfl

theorem clamp_range {lo hi x : Int} (h : lo ≤ hi) : lo ≤ clamp lo hi x ∧ clamp lo hi x ≤ hi := by
  unfold clamp; omega

theorem clamp_changes {lo hi x : Int} (h : lo ≤ hi) : (clamp lo hi x != x) = true ↔ ¬ (lo ≤ x ∧ x ≤ hi) := by
  unfold clamp; simp; omega

theorem clampNat_changes {lo hi x : Nat} (h : lo ≤ hi) : (clampNat lo hi x != x) = true ↔ ¬ (lo ≤ x ∧ x ≤ hi) := by
  unfold clampNat; simp; omega

theorem clampedIf_eq {b : Bool} {p : Prop} [Decidable p] (h : b = true ↔ ¬ p) :
    clampedIf b = if p then .ok else .clamped := by
  unfold clampedIf; cases b <;> simp_all

/-- A curve load is CLAMPED exactly where some entry lies outside its range (R37, R41). -/
theorem anyOutside_eq {n : Nat} {lo hi : Int} (h : lo ≤ hi) (e : Vector (BitVec 12) n) :
    anyOutside lo hi e = true ↔ ¬ ∀ k : Fin n, lo ≤ e[k].toInt ∧ e[k].toInt ≤ hi := by
  unfold anyOutside
  rw [List.any_eq_true]
  constructor
  · rintro ⟨x, hx, hc⟩ hall
    rw [clamp_changes h] at hc
    rw [Vector.mem_toList_iff] at hx
    obtain ⟨i, hi, rfl⟩ := Vector.mem_iff_getElem.mp hx
    exact hc (hall ⟨i, hi⟩)
  · intro hn
    simp only [not_forall] at hn
    obtain ⟨k, hk⟩ := hn
    exact ⟨e[k], by simp, (clamp_changes h).mpr hk⟩

/-! ### Recomputed targets, one by one (R52, R53) -/

variable (s : State) (p : Chan → Bool)

theorem userTarget_at (c : Chan) : (recomputeUser p s).gain.targets.user[c] =
    if p c then userTarget s.gain.cabin (s.gain.zones.get s.channels[c].zone) s.channels[c]
    else s.gain.targets.user[c] := by
  simp [recomputeUser, userTargets]

theorem speedTarget_at (c : Chan) : (recomputeSpeed p s).gain.targets.speed[c] =
    if p c then speedTarget (s.gain.zones.get s.channels[c].zone) s.channels[c] else s.gain.targets.speed[c] := by
  simp [recomputeSpeed, speedTargets]

theorem muteTarget_at (c : Chan) : (recomputeMute p s).gain.targets.mute[c] =
    if p c then muteTarget s.gain.mutes[c] (s.gain.zones.get s.channels[c].zone) else s.gain.targets.mute[c] := by
  simp [recomputeMute, muteTargets]

theorem duckTarget_at (z y : Zone) : (recomputeDuck z s).gain.targets.duck.get y =
    if y = z then duckTarget (s.gain.zones.get z) s.duck.level else s.gain.targets.duck.get y := by
  simp only [recomputeDuck, PerZone.get_set]

/-! ### One record each -/

/-- Only READ_METERS touches the meters, and restarts them (R168). -/
theorem takeCommand_output (z : Zone) (c : Command) : (takeCommand z s c).state.output = s.output ∨
    (takeCommand z s c).state.output = OutputStage.reset := by
  cases c with
  | readMeters => right; rfl
  | loadSdvCurve points =>
    left; simp only [takeCommand]
    rcases takeLoadSdvCurve_cases s z points with h | ⟨_, h⟩ <;> simp [h]
  | _ =>
    left
    simp only [takeCommand, takeAssignAddress, takeDeviceReset, takeReadTable, takeSetBalance, takeSetFade,
      takeLoadBalanceCurve, takeLoadFadeCurve, takeSetChannelTrim, takeSetChannelMute, takeSetVolume, takeStepVolume,
      takeLoadVolumeCurve, takeSetZoneMute, takeSetDuck, takeSetZoneOptions, takeSetRamp, takeVehicleState,
      takeSetSpeedPolicy, takeLoadSource, takeLoadChannel, takeLoadSection, takeLoadProgram, takeSelectPage,
      takeSetNoticeEnable, takeStatusPoll, takeRollCall, takeRollCallAssign, done, answerData, storeStep, storeSource]
    all_goals try ((repeat' split) <;> simp [setProgram])

/-- What the commands make of the Speed Tracker: nothing, a judged reading (R87), or a new policy (R95). -/
theorem takeCommand_speed (z : Zone) (c : Command) : (takeCommand z s c).state.speed = s.speed ∨
    (∃ m, m ≤ 400 ∧ (takeCommand z s c).state.speed = judge m s.speed) ∨
    (∃ j h t f, j ≤ 255 ∧ h ≤ 31 ∧ t ≤ 255 ∧ f ≤ 400 ∧ (takeCommand z s c).state.speed = applyPolicy j h t f s.speed) := by
  cases c with
  | vehicleState v b =>
    simp only [takeCommand, takeVehicleState]; split
    · exact .inr (.inl ⟨min 400 v.toNat, by omega, by simp [done]⟩)
    · exact .inl rfl
  | setSpeedPolicy p =>
    exact .inr (.inr ⟨_, _, _, _, Nat.min_le_left _ _, Nat.min_le_left _ _, Nat.min_le_left _ _, Nat.min_le_left _ _,
      by simp [takeCommand, takeSetSpeedPolicy, done]; rfl⟩)
  | loadSdvCurve points =>
    left; simp only [takeCommand]
    rcases takeLoadSdvCurve_cases s z points with h | ⟨_, h⟩ <;> simp [h]
  | _ =>
    left
    simp only [takeCommand, takeAssignAddress, takeDeviceReset, takeReadTable, takeSetBalance, takeSetFade,
      takeLoadBalanceCurve, takeLoadFadeCurve, takeSetChannelTrim, takeSetChannelMute, takeSetVolume, takeStepVolume,
      takeLoadVolumeCurve, takeSetZoneMute, takeSetDuck, takeSetZoneOptions, takeSetRamp, takeLoadSource,
      takeLoadChannel, takeLoadSection, takeLoadProgram, takeSelectPage, takeSetNoticeEnable, takeStatusPoll,
      takeRollCall, takeRollCallAssign, takeReadMeters, done, answerData, storeStep, storeSource]
    all_goals try ((repeat' split) <;> simp [setProgram])

/-- Only SET_RAMP touches a lane's settings, and never its count (R65). -/
theorem takeCommand_lanes (z : Zone) (c : Command) : (takeCommand z s c).state.ramp.lanes = s.ramp.lanes ∨
    (∃ l p a r, p ≤ 255 ∧ 1 ≤ a ∧ a ≤ 96 ∧ 1 ≤ r ∧ r ≤ 96 ∧ (takeCommand z s c).state.ramp.lanes =
      s.ramp.lanes.set l { s.ramp.lanes.get l with
        period := p, first := a, second := if hasRelease l then r else (s.ramp.lanes.get l).second }) := by
  cases c with
  | setRamp l p a r =>
    simp only [takeCommand, takeSetRamp]; split
    · exact .inl rfl
    · rename_i l _
      refine .inr ⟨l, min 255 p.toNat, clampNat 1 96 a.toNat, clampNat 1 96 r.toNat, by omega, ?_, ?_, ?_, ?_, rfl⟩ <;>
        unfold clampNat <;> omega
  | loadSdvCurve points =>
    left; simp only [takeCommand]
    rcases takeLoadSdvCurve_cases s z points with h | ⟨_, h⟩ <;> simp [h]
  | _ =>
    left
    simp only [takeCommand, takeAssignAddress, takeDeviceReset, takeReadTable, takeSetBalance, takeSetFade,
      takeLoadBalanceCurve, takeLoadFadeCurve, takeSetChannelTrim, takeSetChannelMute, takeSetVolume, takeStepVolume,
      takeLoadVolumeCurve, takeSetZoneMute, takeSetDuck, takeSetZoneOptions, takeVehicleState, takeSetSpeedPolicy,
      takeLoadSource, takeLoadChannel, takeLoadSection, takeLoadProgram, takeSelectPage, takeSetNoticeEnable,
      takeStatusPoll, takeRollCall, takeRollCallAssign, takeReadMeters, done, answerData, storeStep, storeSource]
    all_goals try ((repeat' split) <;> simp [setProgram])

/-- Only LOAD_SOURCE touches the source records, and never with the output slot of an enabled channel (R18, R19). -/
theorem takeCommand_sources (z : Zone) (c : Command) : (takeCommand z s c).state.sources = s.sources ∨
    ∃ (i : SourceId) (p : Bool) (n : BitVec 8) (k : BitVec 5) (slot : Option AudioSlot), c = .loadSource n p k ∧
      (∀ x, slot = some x → ∀ c : Chan, s.channels[c].out ≠ some x) ∧
      (takeCommand z s c).state.sources = s.sources.set i slot := by
  cases c with
  | loadSource i p k =>
    simp only [takeCommand, takeLoadSource]; split
    · split
      · exact .inl rfl
      · rename_i hh h
        refine .inr ⟨⟨i.toNat, hh⟩, p, i, k, optSlot p k, rfl, ?_, rfl⟩
        intro x hx c hc
        apply h
        simp only [hx, Option.any_some, slotWritten, List.any_eq_true]
        exact ⟨c, List.mem_finRange c, by simpa using hc⟩
    · exact .inl rfl
  | loadSdvCurve points =>
    left; simp only [takeCommand]
    rcases takeLoadSdvCurve_cases s z points with h | ⟨_, h⟩ <;> simp [h]
  | _ =>
    left
    simp only [takeCommand, takeAssignAddress, takeDeviceReset, takeReadTable, takeSetBalance, takeSetFade,
      takeLoadBalanceCurve, takeLoadFadeCurve, takeSetChannelTrim, takeSetChannelMute, takeSetVolume, takeStepVolume,
      takeLoadVolumeCurve, takeSetZoneMute, takeSetDuck, takeSetZoneOptions, takeSetRamp, takeVehicleState,
      takeSetSpeedPolicy, takeLoadChannel, takeLoadSection, takeLoadProgram, takeSelectPage, takeSetNoticeEnable,
      takeStatusPoll, takeRollCall, takeRollCallAssign, takeReadMeters, done, answerData, storeStep]
    all_goals try ((repeat' split) <;> simp [setProgram])

/-- The taps of a load that is taken lie in range (R22, R23). -/
theorem toTaps_range {ws : List TapWord} {ts : List Tap} (h : toTaps ws = some ts) :
    ts.length = ws.length ∧ ∀ t ∈ ts, -768 ≤ t.gain ∧ t.gain ≤ 0 := by
  induction ws generalizing ts with
  | nil => simp [toTaps] at h; subst h; simp
  | cons w ws ih =>
    simp only [toTaps] at h
    split at h
    · rename_i t ts' h1 h2
      simp only [Option.some.injEq] at h; subst h
      obtain ⟨a, b⟩ := ih h2
      refine ⟨by simp [a], fun t' ht' => ?_⟩
      rcases List.mem_cons.mp ht' with rfl | ht'
      · unfold toTap at h1; split at h1
        · simp only [Option.some.injEq] at h1; subst h1; exact clamp_range (by decide)
        · simp at h1
      · exact b t' ht'
    · simp at h

end Sys2Proof.Machine
end

