-- ==== Sys2Proof/Laws/Settle.lean ====
section
/-! SUPPORT. The settled flags (R144): what re-evaluating them does to the flags and to the PAGE_SETTLED notice. -/

namespace Sys2Proof.Machine

variable {s t u : State}

/-- The flag of a zone says what R144 asks of it. -/
theorem isSettled_iff (s : State) (z : Zone) : isSettled s z = true ↔
    ∀ c : Chan, s.channels[c].zone = z → s.sched.switch[c] = .steady (s.gain.zones.get z).requestedPage := by
  simp only [isSettled, List.all_eq_true, List.mem_finRange, true_implies, Bool.or_eq_true, bne_iff_ne, beq_iff_eq]
  exact forall_congr' fun c => imp_iff_not_or.symm

theorem notifyIf_settled (b : Bool) (s : State) : hasKind (notifyIf b .pageSettled s).notices.pending .pageSettled =
    (hasKind s.notices.pending .pageSettled || (b && hasKind s.notices.enabled .pageSettled)) := by
  cases b <;> simp [notifyIf, notify]
  split <;> simp_all [hasKind, addKind]

@[simp] theorem resettle_settled (z y : Zone) : (resettle z s).sched.settled.get y =
    if y = z then isSettled s z else s.sched.settled.get y := by
  dsimp only [resettle]
  cases h : (isSettled s z && !s.sched.settled.get z) <;> cases z <;> cases y <;> simp [notifyIf, PerZone.get, PerZone.set]

@[simp] theorem isSettled_resettle (z y : Zone) : isSettled (resettle z s) y = isSettled s y := by
  have h := onlyPages_resettle (s := s) z
  unfold isSettled
  rw [h.channels, h.gain, resettle_switch]

theorem resettle_notice (z : Zone) : SettledNotice s (resettle z s) := by
  have e : hasKind (resettle z s).notices.pending .pageSettled =
      (hasKind s.notices.pending .pageSettled ||
        ((isSettled s z && !s.sched.settled.get z) && hasKind s.notices.enabled .pageSettled)) := by
    dsimp only [resettle]; rw [notifyIf_settled]
  unfold SettledNotice
  rw [e]
  constructor
  · intro h
    simp only [Bool.or_eq_true, Bool.and_eq_true, Bool.not_eq_true'] at h
    rcases h with h | ⟨⟨h, g⟩, k⟩
    · exact .inl h
    · exact .inr ⟨k, z, g, by simp [h]⟩
  · rintro (h | ⟨k, y, g, h⟩)
    · simp [h]
    · rw [resettle_settled] at h
      split at h
      · subst_vars; simp [h, g, k]
      · simp [g] at h

/-- Re-evaluating the flags of the zones picked leaves them as R144 says, and records its notice so. -/
theorem resettleZones_spec (a b : Bool) (s : State) :
    (resettleZones a b s).sched.switch = s.sched.switch ∧
    (∀ z : Zone, (resettleZones a b s).sched.settled.get z =
      if (match z with | .a => a | .b => b) = true then isSettled s z else s.sched.settled.get z) ∧
    SettledNotice s (resettleZones a b s) := by
  have two : SettledNotice s (resettle .b (resettle .a s)) := by
    have h := resettle_notice (s := s) .a
    have g := resettle_notice (s := resettle .a s) .b
    have en := (onlyPages_resettle (s := s) .a).enabled
    unfold SettledNotice at *
    rw [g, h, en]
    constructor
    · rintro ((h | ⟨k, z, h1, h2⟩) | ⟨k, z, h1, h2⟩)
      · exact .inl h
      · exact .inr ⟨k, z, h1, by rw [resettle_settled] at h2 ⊢; cases z <;> simp_all⟩
      · exact .inr ⟨k, z, by rw [resettle_settled] at h1 h2; cases z <;> simp_all, h2⟩
    · rintro (h | ⟨k, z, h1, h2⟩)
      · exact .inl (.inl h)
      · cases z
        · exact .inl (.inr ⟨k, .a, h1, by simpa using h2⟩)
        · exact .inr ⟨k, .b, by simpa using h1, h2⟩
  have none' : SettledNotice s s := by
    unfold SettledNotice
    constructor
    · exact .inl
    · rintro (h | ⟨_, z, h1, h2⟩)
      · exact h
      · rw [h1] at h2; cases h2
  cases a <;> cases b
  · exact ⟨rfl, by intro z; cases z <;> rfl, none'⟩
  · exact ⟨by simp [resettleZones], by intro z; cases z <;> simp [resettleZones], resettle_notice _⟩
  · exact ⟨by simp [resettleZones], by intro z; cases z <;> simp [resettleZones], resettle_notice _⟩
  · exact ⟨by simp [resettleZones], by intro z; cases z <;> simp [resettleZones], two⟩

/-- What was deferred takes effect as a statement says it does: `once` is the end of the act. -/
theorem leaveAnswering_finish (s : State) :
    (leaveAnswering s).finish = (setSender .quiet s).once s.port.sender.deferred := by
  unfold leaveAnswering
  split
  · rename_i h
    simp only [h, Sender.deferred, State.once, Turn.finish, setSender, Bool.false_eq_true, if_false]
    rw [← h]
  · rename_i w rest d h
    cases d <;> simp [h, Sender.deferred, State.once, Turn.finish, applyDeferred, deviceReset, keptAddress, setSender]

end Sys2Proof.Machine
end

