-- ==== Sys2Proof/Laws/Words.lean ====
section
/-! SUPPORT. The words of answers: what packing fields into a word makes, as a number and so as a concatenation, and where
the words of a record stand in a table. -/

namespace Sys2Proof.Machine

/-- The bits of one field. -/
def Field.bits (f : Field) : BitVec f.width := BitVec.ofInt f.width f.value

/-- The widths of the fields together. -/
def fieldsWidth (fs : List Field) : Nat := (fs.map Field.width).sum

/-- The fields packed, as a number of that many bits. -/
def fieldsValue : List Field → Nat
  | [] => 0
  | f :: fs => f.bits.toNat * 2 ^ fieldsWidth fs + fieldsValue fs

theorem Field.bits_toNat (f : Field) : f.bits.toNat = (f.value % 2 ^ f.width).toNat := by
  simp [Field.bits, BitVec.toNat_ofInt]

theorem packWord_foldl (fs : List Field) (w v : Nat) :
    fs.foldl (fun (acc : Nat × Nat) f =>
      (acc.1 + f.width, acc.2 * 2 ^ f.width + (f.value % 2 ^ f.width).toNat)) (w, v) =
      (w + fieldsWidth fs, v * 2 ^ fieldsWidth fs + fieldsValue fs) := by
  induction fs generalizing w v with
  | nil => simp [fieldsWidth, fieldsValue]
  | cons f fs ih =>
    simp only [List.foldl_cons, ih, fieldsValue, Field.bits_toNat]
    simp [fieldsWidth, Nat.pow_add]
    constructor <;> ring

theorem fieldsValue_lt (fs : List Field) : fieldsValue fs < 2 ^ fieldsWidth fs := by
  induction fs with
  | nil => simp [fieldsWidth, fieldsValue]
  | cons f fs ih =>
    have h : fieldsWidth (f :: fs) = f.width + fieldsWidth fs := by simp [fieldsWidth]
    rw [h, Nat.pow_add, fieldsValue]
    have := f.bits.isLt
    nlinarith [Nat.two_pow_pos (fieldsWidth fs)]

/-- What packWord makes of fields of at most 32 bits together: the fields from bit 31 down, 0 below. -/
theorem packWord_toNat (fs : List Field) (h : fieldsWidth fs ≤ 32) :
    (packWord fs).toNat = fieldsValue fs * 2 ^ (32 - fieldsWidth fs) := by
  simp only [packWord, packWord_foldl]
  simp only [Nat.zero_mul, Nat.zero_add, BitVec.toNat_ofNat]
  apply Nat.mod_eq_of_lt
  have := fieldsValue_lt fs
  calc fieldsValue fs * 2 ^ (32 - fieldsWidth fs) < 2 ^ fieldsWidth fs * 2 ^ (32 - fieldsWidth fs) :=
        Nat.mul_lt_mul_of_pos_right this (Nat.two_pow_pos _)
    _ = 2 ^ 32 := by rw [← Nat.pow_add]; congr 1; omega

/-- A concatenation as a number. -/
theorem append_toNat {m n : Nat} (x : BitVec m) (y : BitVec n) : (x ++ y).toNat = x.toNat * 2 ^ n + y.toNat := by
  rw [BitVec.toNat_append, ← Nat.shiftLeft_add_eq_or_of_lt y.isLt, Nat.shiftLeft_eq]

@[simp] theorem nat_bits (w v : Nat) : (nat w v).bits = BitVec.ofNat w v := by simp [Field.bits, nat]
@[simp] theorem int_bits (w : Nat) (v : Int) : (int w v).bits = BitVec.ofInt w v := rfl
@[simp] theorem flag_bits (b : Bool) : (flag b).bits = bit b := by cases b <;> rfl
@[simp] theorem nat_width (w v : Nat) : (nat w v).width = w := rfl
@[simp] theorem int_width (w : Nat) (v : Int) : (int w v).width = w := rfl
@[simp] theorem flag_width (b : Bool) : (flag b).width = 1 := rfl

/-- Word `k i + j` of records of `k` words each is word `j` of record `i`. -/
theorem getElem?_flatMap_chunks {α β : Type} (k : Nat) (f : α → List β) (hf : ∀ a, (f a).length = k) (l : List α)
    (i j : Nat) (hj : j < k) : (l.flatMap f)[k * i + j]? = (l[i]?).bind fun a => (f a)[j]? := by
  induction l generalizing i with
  | nil => simp
  | cons a l ih =>
    rw [List.flatMap_cons]
    cases i with
    | zero => simp [List.getElem?_append_left, hf, hj]
    | succ i =>
      rw [List.getElem?_append_right (by rw [hf, Nat.mul_succ]; omega), hf]
      rw [show k * (i + 1) + j - k = k * i + j by rw [Nat.mul_succ]; omega, ih]
      simp

@[simp] theorem channelWords_length (r : ChannelRecord) : (channelWords r).length = 6 := rfl

/-- Word `j` of channel `c` in the channel table (R33). -/
theorem channelTable_at (s : State) (c : Chan) (j : Nat) (h : j < 6) :
    (channelTable s)[6 * c.val + j]? = (channelWords s.channels[c])[j]? := by
  rw [channelTable, getElem?_flatMap_chunks 6 _ channelWords_length _ _ _ h]
  simp

/-- Word `j` of words that carry two entries each is made of entries `2 j` and `2 j + 1`. -/
theorem inPairs_map_at {α β : Type} (f : List α → β) (l : List α) (j : Nat) (a b : α) (ha : l[2 * j]? = some a)
    (hb : l[2 * j + 1]? = some b) : ((inPairs l).map f)[j]? = some (f [a, b]) := by
  induction l using inPairs.induct generalizing j with
  | case1 x y rest ih =>
    cases j with
    | zero => simp_all [inPairs]
    | succ j =>
      simp only [inPairs, List.map_cons, List.getElem?_cons_succ]
      exact ih j (by simpa [Nat.mul_succ] using ha) (by simpa [Nat.mul_succ] using hb)
  | case2 x => cases j <;> simp_all
  | case3 => simp at ha

/-- Fields of 18 bits packed are their bits from bit 31 down: how a packed word becomes a concatenation. -/
theorem packWord_five (b : Bool) (p y : Nat) (x : Int) (z : Nat) :
    packWord [flag b, nat 5 p, nat 3 y, int 5 x, nat 4 z] =
      bit b ++ BitVec.ofNat 5 p ++ BitVec.ofNat 3 y ++ BitVec.ofInt 5 x ++ BitVec.ofNat 4 z ++ (0 : BitVec 14) := by
  apply BitVec.eq_of_toNat_eq
  rw [packWord_toNat _ (by simp [fieldsWidth])]
  simp only [append_toNat, fieldsValue, fieldsWidth, List.map_cons, List.map_nil, List.sum_cons, List.sum_nil, nat_width,
    int_width, flag_width, nat_bits, int_bits, flag_bits]
  norm_num
  ring_nf
  simp

end Sys2Proof.Machine
end

