-- ==== Sys2Proof/Tests/Slice0.lean ====
section
/-! SUPPORT. Tests of one step each, with figures from the spec's worked cases and tables; the refusals of WellFormed; and
a witness for the hypotheses of every statement. Each test names its source. -/

namespace Sys2Proof.Tests

open Sys2Proof Sys2Proof.Machine

set_option Elab.async false

/-! ### Small states -/

/-- The state a command leaves. -/
def after (i : Instr) (s : State) : State :=
  match exec i s with
  | .next t => t
  | .fault _ => s
  | .refused _ => s

/-- Locked, the pin released, the sender quiet, address 0. -/
def locked : State := setLock .locked 0 State.reset

/-- The route to address 0, zone A. -/
def toA : Route := { address := 0, zoneBit := false }

/-- The route to address 0, zone B. -/
def toB : Route := { address := 0, zoneBit := true }

/-- The broadcast route, zone A. -/
def toAll : Route := { address := 31, zoneBit := false }

/-- The result code in the answer word that goes next; 15 where none does. -/
def codeOf (s : State) : Nat :=
  match s.port.sender with
  | .answering w _ _ => (w.extractLsb' 28 4).toNat
  | .quiet => 15

/-- A frame with an IDLE control word and silent slots. -/
def idleFrame : FrameFields :=
  { control := 0, answer := 0, service := 0, roll := 0, slots := Vector.replicate 32 0 }

/-- The same frame as it stands on the ring. -/
def idleRing : RingFrame := { sync := 0xB5C3, fields := idleFrame, check := 0 }

/-- Channel 0 in zone A of chapter 3's worked case: x = -6, y = 10, trim +6, weight 12. -/
def frontDoor : ChannelRecord :=
  { out := some 12, zone := .a, x := -6, y := 10, trim := 6, weight := 12, taps := [] }

/-- Zone A of chapter 3's worked case, at volume -160, ceiling -24, boost 32. -/
def caseZone : ZoneRecord :=
  { ZoneRecord.reset with curve := Vector.replicate 64 (-160), boost := 32, ceiling := -24 }

/-- The cabin of chapter 3's worked case: balance +8 with A[8] = 48, fade -4 with F[4] = 24. -/
def caseCabin : Cabin :=
  { balance := 8, fade := -4, balanceCurve := (Vector.replicate 32 0).set 7 48,
    fadeCurve := (Vector.replicate 32 0).set 3 24 }

/-- Channel 0 enabled on slot 12, the rest as locked. -/
def oneChannel : State := setRecord 0 { frontDoor with x := 0, y := 0, trim := 0, weight := 16 } locked

/-- Channel 0 fading from page 0 to page 1 in slot 0, one frame from its end, all else at rest. -/
def fading : State :=
  setSlot 0 (some { channel := 0, old := 0, target := 1, k := 255, length := 256, next := none })
    (setSwitch 0 (.fading 0 0) (setTargetChain 0 (some []) oneChannel))

/-! ### WellFormed refuses each kind of ill-formed term -/

theorem test_wf_syncFound : (Instr.syncFound { idleRing with sync := 0xB5C2 }).wellFormed = false := by decide
theorem test_wf_syncBad : (Instr.syncBad idleRing).wellFormed = false := by decide
theorem test_wf_order : (Instr.frame idleFrame false [.fades, .meters, .fades]).wellFormed = false := by decide
theorem test_wf_check : (Instr.damagedFrame idleFrame (checkValue idleFrame) false []).wellFormed = false := by
  simp [Instr.wellFormed]
theorem test_wf_breakpoints : (Instr.loadSdvCurve toA (List.replicate 255
    { speed := 0, boost := 0, pagePresent := false, page := 0 })).wellFormed = false := by decide +kernel
theorem test_wf_taps : (Instr.loadChannel toA
    { channel := 0, slotPresent := false, slot := 0, zone := false, x := 0, y := 0, trim := 0, weight := 0 }
    (List.replicate 8 { source := 0, gain := 0, duck := false })).wellFormed = false := by decide
theorem test_wf_entries : (Instr.loadProgram toA 0 0 (List.replicate 16 0)).wellFormed = false := by decide
theorem test_wf_good : (Instr.frame idleFrame false [.fades, .control]).wellFormed = true := by decide

/-! ### Sample arithmetic (chapter 1, worked cases) -/

theorem test_scale_root : scale 1000000 24 = 1414214 := by decide +kernel
theorem test_scale_half : scale (BitVec.ofInt 24 (-1000001)) (-48) = -500000 := by decide +kernel
theorem test_scale_ceiling : scale 3000000 96 = 12000000 ∧ saturate 12000000 = 8388607 ∧ saturates 12000000 = true := by
  decide +kernel
theorem test_scale_marks : saturates (scale (BitVec.ofInt 24 (-2097152)) 96) = false ∧
    saturates (scale (BitVec.ofInt 24 (-2097153)) 96) = true ∧ saturates (scale 2097151 96) = false := by decide +kernel
theorem test_scale_above_floor : scale 8388607 (-767) = 130 ∧ scale (BitVec.ofInt 24 (-8388608)) (-767) = -130 ∧
    scale 1000 (-767) = 0 := by decide +kernel
theorem test_scale_floor : scale 8388607 (-768) = 0 ∧ scale 8388607 (-5000) = 0 ∧ scale 1234 0 = 1234 := by
  decide +kernel

/-- Chapter 1's section: b0 = b1 = 0.5, a1 = -0.5. -/
def caseSection : Coeffs := { b0 := 2097152, b1 := 2097152, b2 := 0, a1 := BitVec.ofInt 24 (-2097152), a2 := 0 }

theorem test_section_frames :
    let r1 := runChain [caseSection] [Position.zero] 1000
    let r2 := runChain [caseSection] r1.chain 1000
    let r3 := runChain [caseSection] r2.chain 1000
    let r4 := runChain [caseSection] r3.chain 1000
    r1.out = 500 ∧ r2.out = 1250 ∧ r3.out = 1625 ∧ r4.out = 1813 ∧
      r4.chain = [{ x1 := 1000, x2 := 1000, y1 := 1813, y2 := 1625 }] := by decide +kernel
theorem test_section_saturates :
    let r1 := runChain [caseSection] [Position.zero] 8000000
    let r2 := runChain [caseSection] r1.chain 8000000
    r1.out = 4000000 ∧ r1.clipped = false ∧ r2.out = 8388607 ∧ r2.clipped = true := by decide +kernel
theorem test_blend : blend 1000 2000 1 256 = 1004 ∧ blend 1000 2000 128 256 = 1500 ∧ blend 1000 2000 255 256 = 1996 ∧
    blend 1000 2000 256 256 = 2000 ∧ blend 4900000 3600000 64 256 = 4575000 := by decide +kernel
theorem test_blend_negative_half : blend 0 (BitVec.ofInt 24 (-1)) 128 256 = 0 ∧
    blend 0 (BitVec.ofInt 24 (-1)) 129 256 = -1 := by decide +kernel
/-- Chapter 1, mix sums: the second channel, ducked and not. -/
theorem test_mix :
    let taps : List Tap := [{ source := 0, gain := -48, duck := true }, { source := 0, gain := -96, duck := false }]
    let taken : Vector Sample 8 := (Vector.replicate 8 0).set 0 4000000
    mixSum taken (-720) taps = 1000000 ∧ mixSum taken 0 taps = 3000000 := by decide +kernel

/-! ### The gain plan (chapter 3, worked cases) -/

theorem test_user_target : balanceAtt caseCabin (-6) = 36 ∧ fadeAtt caseCabin 10 = 16 ∧
    userTarget caseCabin caseZone frontDoor = -206 := by decide +kernel
theorem test_user_target_others : userTarget caseCabin caseZone { frontDoor with x := 6 } = -170 ∧
    userTarget caseCabin caseZone { frontDoor with x := 0, y := 1, trim := 0 } = -162 ∧
    userTarget caseCabin caseZone { frontDoor with x := -8, y := 9, trim := 0 } = -222 := by decide +kernel
theorem test_speed_target : speedTarget caseZone frontDoor = 24 ∧
    speedTarget { caseZone with curve := Vector.replicate 64 (-40) } frontDoor = 16 ∧
    speedTarget { caseZone with curve := Vector.replicate 64 (-24) } frontDoor = 0 ∧
    speedTarget { caseZone with boost := -16 } frontDoor = -12 := by decide +kernel
theorem test_full_cut :
    let cab : Cabin := { caseCabin with balance := 32, fade := 0, balanceCurve := (Vector.replicate 32 0).set 31 768 }
    let loud : ZoneRecord := { caseZone with curve := Vector.replicate 64 0 }
    userTarget cab loud { frontDoor with x := -8 } = -768 ∧
      userTarget cab caseZone { frontDoor with x := -7, trim := 0 } = -768 ∧
      userTarget cab caseZone { frontDoor with x := -4, trim := 0 } = -544 := by decide +kernel
theorem test_reset_curve : (ZoneRecord.reset.curve[1] = -744) ∧ ZoneRecord.reset.curve[21] = -504 ∧
    ZoneRecord.reset.curve[63] = 0 := by decide +kernel

/-- Chapter 7's curve of zone B. -/
def caseCurve : List Breakpoint :=
  [{ speed := 0, boost := 0, page := some 0 }, { speed := 60, boost := 0, page := none },
   { speed := 120, boost := 48, page := some 1 }, { speed := 180, boost := 72, page := some 2 }]

theorem test_sdv : sdvBoost caseCurve 50 = 0 ∧ sdvBoost caseCurve 70 = 8 ∧ sdvBoost caseCurve 119 = 47 ∧
    sdvBoost caseCurve 125 = 50 ∧ sdvBoost caseCurve 122 = 48 ∧ sdvBoost caseCurve 190 = 72 := by decide +kernel
theorem test_requested :
    let page := fun v => evalRequested (evalSdv v
      { ZoneRecord.reset with sdv := caseCurve, speedPages := true, userPage := 3 })
    page 50 = 0 ∧ page 70 = 3 ∧ page 119 = 3 ∧ page 125 = 1 ∧ page 190 = 2 := by decide +kernel

/-! ### Ramps, speed, duck line (chapters 4, 5, 6, worked examples) -/

theorem test_ramp : moveToward 2 2 (-400) (-206) = -398 ∧ moveToward 2 2 (-208) (-206) = -206 ∧
    moveToward 4 16 (-568) (-768) = -584 ∧ moveToward 4 16 (-760) (-768) = -768 ∧
    moveToward 4 16 (-768) 0 = -764 := by decide

/-- Chapter 6's tracker: fresh at 100 with J = 20, H = 3, T = 50. -/
def tracker : SpeedTracker :=
  { SpeedTracker.reset with fresh := true, accepted := 100, effective := 100, counter := 5, jump := 20 }

theorem test_speed_jump : judge 160 tracker = { tracker with candidate := some 160 } ∧
    judge 162 { tracker with candidate := some 160 } =
      { tracker with accepted := 162, effective := 162, counter := 24000 } := by decide
theorem test_speed_spike : (judge 101 { tracker with candidate := some 160 }).effective = 101 ∧
    judge 130 { tracker with candidate := some 160 } = { tracker with candidate := some 130 } := by decide
theorem test_speed_backlash : (judge 98 tracker).effective = 100 ∧ (judge 96 tracker).effective = 99 ∧
    (accept 99 { tracker with accepted := 95, effective := 98 }).effective = 99 ∧
    (judge 30 { (expire { tracker with fallback := 50 }) with accepted := 50 }).effective = 33 := by decide
theorem test_policy : (applyPolicy 20 1 50 0 { tracker with accepted := 95, effective := 98 }).effective = 96 ∧
    (applyPolicy 20 1 50 0 tracker).counter = 24000 := by decide

/-- Chapter 5's deglitch: previous, level and pin before a sample; level after it. -/
def sampled (previous level pin : Bool) : Bool :=
  (takeDuckSample { locked with duck := { count := 1, previous := previous, level := level }, pins.duck := pin }).duck.level

theorem test_deglitch : sampled false false true = false ∧ sampled true false false = false ∧
    sampled true false true = true ∧ sampled true true false = true ∧ sampled false true false = false := by
  decide +kernel

/-! ### The stability test (chapter 8, worked cases) -/

/-- A section with these a coefficients. -/
def withA (a1 a2 : Int) : Coeffs := { caseSection with a1 := BitVec.ofInt 24 a1, a2 := BitVec.ofInt 24 a2 }

theorem test_stable : stable (withA (-2097152) 0) = true ∧ stable (withA (-7549746) 3355443) = true ∧
    stable (withA (-7549747) 3355443) = false ∧ stable (withA 2097152 (-2097152)) = false ∧
    stable (withA 0 4194304) = false := by decide +kernel

/-! ### The check field and messages (R147, 12.2 to 12.4) -/

/-- The nine bytes "123456789" through this CRC give 0x29B1 (the published check value of the polynomial and initial
value of R147, no final inversion). -/
theorem test_crc : crcBits 72 0x313233343536373839 0xFFFF = 0x29B1 := by decide +kernel

/-- HEADER to 12, SET_VOLUME, count 1 (chapter 10's sequence): 01 01100 0 0011 00000001 00000001 0000. -/
theorem test_header : headerWord { address := 12, zoneBit := false } (.setVolume 70) = 0x58301010 ∧
    readHeader 0x58301010 =
      { route := { address := 12, zoneBit := false }, space := 3, command := 1, count := 1 } := by decide +kernel
/-- PAYLOAD with step 70 (12.4): 10 01000110 0...0. -/
theorem test_payload : payloadWord (byteWord 70) = 0x91800000 ∧
    readMessage 3 1 [readPayload 0x91800000] = .command (.setVolume 70) := by decide +kernel
/-- SET_RAMP mute lane, P = 5, attack 7, release 9 (12.4): 0010 0000000101 00000111 00001001. -/
theorem test_ramp_word : readMessage 4 1 [0x08050709] = .command (.setRamp 2 5 7 9) := by decide +kernel
/-- LOAD_CHANNEL 5, slot 12, zone B, one tap, x = -8, y = 3; trim -1, weight 16; source 2, gain -48, duckable (12.4). -/
theorem test_channel_words : readMessage 6 2 [0x016C9C0C, 0x3FF80000, 0x00BF4200] =
    .command (.loadChannel { channel := 5, slotPresent := true, slot := 12, zone := true, x := 24, y := 3, trim := 1023,
                             weight := 16 } [{ source := 2, gain := 0xFD0, duck := true }]) := by decide +kernel
theorem test_bad_length : readMessage 3 1 [] = .badLength ∧ readMessage 6 2 [0, 0, 0] = .badLength ∧
    readMessage 5 3 [] = .badLength := by decide +kernel
theorem test_unknown : readMessage 0 0 [] = .unknown ∧ readMessage 8 6 [] = .unknown ∧ readMessage 9 1 [] = .unknown := by
  decide +kernel
/-- CLAMPED for SET_VOLUME, no data words (12.2): 0001 0011 00000001 00000000 00000000. -/
theorem test_result_word : resultWord .clamped 3 1 0 = 0x13010000 := by decide +kernel

/-! ### The rows, one step each -/

/-- The answer sender ANSWERING a word with this deferred. -/
def answering (d : Deferred) (s : State) : State := setSender (.answering 7 [] d) s

/-- R160, R148, R20: every block at its reset values. -/
theorem test_resetPinAsserted :
    let t := after .resetPinAsserted oneChannel
    t.pins.reset = true ∧ t.port.lock = .unlocked ∧ t.channels[0].out = none := by decide +kernel
/-- R153: 31 is taken as 30. -/
theorem test_resetPinReleased :
    let t := after (.resetPinReleased 31 true) oneChannel
    t.port.address = 30 ∧ t.port.twin = true ∧ t.pins.reset = false := by decide +kernel
/-- R148: a SYNC found brings UNLOCKED to ACQUIRING, the frame untouched. -/
theorem test_syncFound : (after (.syncFound idleRing) State.reset).port.lock = .acquiring ∧
    (after (.syncFound idleRing) State.reset).ringOut = some { frame := idleRing, judged := .untouched } := by
  decide +kernel
/-- R148, R150: the next good frame locks and is of the sample path: the user prescaler counts it. -/
theorem test_frame_locks :
    let t := after (.frame idleFrame false []) (setLock .acquiring 0 State.reset)
    t.port.lock = .locked ∧ t.ramp.lanes.user.count = 47 := by decide +kernel
/-- Chapter 2's channel in frame f: the older entry goes into slot 12, and 1,000,000 enters as newer. -/
def caseAudio : State :=
  let taps : List Tap := [{ source := 0, gain := 0, duck := true }, { source := 2, gain := -48, duck := false }]
  let s := setRecord 0 { frontDoor with x := -8, y := 2, taps := taps } locked
  { s with sources := (s.sources.set 0 (some 2)).set 2 (some 6),
           port.delays := s.port.delays.set 0 { older := some 11, newer := some 22 },
           ramp.currents := { user := Vector.replicate 24 0, speed := Vector.replicate 24 0,
                              mute := Vector.replicate 24 0, duck := { a := -96, b := 0 } } }

/-- The frame f of chapter 2's table. -/
def caseFrame : FrameFields := { idleFrame with slots := (idleFrame.slots.set 2 2000000).set 6 1000000 }

theorem test_frame_audio :
    let t := after (.frame caseFrame false []) caseAudio
    t.port.delays[0] = { older := some 22, newer := some 1000000 } ∧ t.port.held[2] = 1000000 ∧
      t.ringOut.map (fun o => (o.frame.fields.slots[12], o.frame.fields.slots[2])) = some (11, 2000000) := by
  decide +kernel
/-- Chapter 2's frame f+1: the held samples stand in, CHECK leaves as it arrived, the delays move. -/
theorem test_damagedFrame :
    let s := { caseAudio with port.held := (caseAudio.port.held.set 0 2000000).set 2 1000000 }
    let d := damagedPath { caseFrame with slots := Vector.replicate 32 5 } 9 false [] s
    d.port.delays[0] = { older := some 22, newer := some 1000000 } ∧
      d.ringOut.map (fun o => (o.frame.check, o.frame.fields.slots[2])) = some (9, 5) := by decide +kernel
/-- R148, R149: the fourth miss in a row unlocks. -/
theorem test_syncBad :
    let f : RingFrame := { idleRing with sync := 1 }
    (after (.syncBad f) (setLock .locked 3 oneChannel)).port.lock = .unlocked ∧
      (after (.syncBad f) (setLock .locked 2 oneChannel)).port.misses = 3 := by decide +kernel
/-- R152: a missed SYNC drops the message in hand, with CTRL_LOST where the kind is enabled. -/
theorem test_syncMissing :
    let h : Header := { route := toA, space := 3, command := 1, count := 1 }
    let s := setAssembler (.collecting h 1 []) { locked with notices.enabled.ctrlLost := true }
    (after .syncMissing s).port.assembler = .idle ∧ (after .syncMissing s).notices.pending.ctrlLost = true := by
  decide +kernel
/-- R158: CLEAR drops a message without notice, and the answer. -/
theorem test_clear :
    let s := setAssembler (.skipping 3) (answering .nothing { locked with notices.enabled.ctrlLost := true })
    (after .clear s).port = locked.port ∧ (after .clear s).notices.pending.ctrlLost = false := by decide +kernel
/-- R154. -/
theorem test_newAddress :
    (after .newAddressTakesEffect (answering (.newAddress 9 true) locked)).port =
      { locked.port with address := 9, twin := true } := by decide +kernel
/-- R159: the address and twin mode are kept, the rest is at reset. -/
theorem test_deviceResetTakesEffect :
    let s := answering .deviceReset { oneChannel with port.address := 9 }
    (after .deviceResetTakesEffect s).port = { State.reset.port with address := 9 } ∧
      (after .deviceResetTakesEffect s).channels[0].out = none := by decide +kernel
/-- R136: the fade's channel is STEADY on its target page and the slot is free. -/
theorem test_fadeComplete :
    let t := after (.fadeComplete 0) fading
    t.sched.switch[0] = .steady 1 ∧ t.sched.slots[0] = none ∧ t.equaliser.target[0] = none := by decide +kernel
/-- R136: with channel 20 waiting (chapter 9), the freed slot goes to it. -/
theorem test_queueGrant :
    let s := setQueue [20] (setSwitch 20 (.queued 0 2) locked)
    (after (.queueGrant 3) s).sched.switch[20] = .fading 0 3 ∧ (after (.queueGrant 3) s).sched.queue = [] := by
  decide +kernel
/-- Chapter 4: the tick that ends the old period uses the new step and reloads with the new period. -/
theorem test_laneTick :
    let s := setLane .speed { period := 9, first := 2, second := 0, count := 1 }
      { locked with ramp.currents.speed := (Vector.replicate 24 0).set 0 20,
                    gain.targets.speed := (Vector.replicate 24 0).set 0 24 }
    (after (.laneTick .speed) s).ramp.lanes.speed.count = 480 ∧ (after (.laneTick .speed) s).ramp.currents.speed[0] = 22 := by
  decide +kernel
/-- Chapter 6: the network falls silent. -/
theorem test_stalenessExpiry :
    let s := { locked with speed := { tracker with accepted := 72, effective := 74, counter := 1, fallback := 50 },
                           notices.enabled.speedLost := true }
    (after .stalenessExpiry s).speed.effective = 50 ∧ (after .stalenessExpiry s).speed.fresh = false ∧
      (after .stalenessExpiry s).notices.pending.speedLost = true := by decide +kernel
/-- Chapter 5: sample 5 asserts the line. -/
theorem test_duckSample :
    let s := { locked with duck := { count := 1, previous := true, level := false }, gain.zones.a.depth := 192 }
    (after (.duckSample true) s).duck.level = true ∧ (after (.duckSample true) s).gain.targets.duck.a = -192 := by
  decide +kernel
/-- R154: 31 is stored as 30 and answered CLAMPED; the effect waits for the answer to go. -/
theorem test_assignAddress : (after (.assignAddress toA 31 0) locked).port.address = 0 ∧
    codeOf (after (.assignAddress toA 31 0) locked) = 1 ∧
    (after (.assignAddress toAll 31 0) locked).port.address = 30 := by decide +kernel
/-- R159: a broadcast device reset resets at once. -/
theorem test_deviceReset : (after (.deviceReset toAll) oneChannel).channels[0].out = none ∧
    (after (.deviceReset toA) oneChannel).channels[0].out = some 12 := by decide +kernel
/-- R172: the lengths of the tables, and a selector that is not one. -/
theorem test_readTable :
    ((tableWords 2 0 locked).map List.length, (tableWords 6 0 locked).map List.length,
      (tableWords 11 0 locked).map List.length) = (some 144, some 103, some 78) ∧
    codeOf (after (.readTable toA 12 0) locked) = 4 ∧ codeOf (after (.readTable toA 1 1) locked) = 4 := by decide +kernel
/-- R172, 12.5: the reset settings of the speed and mute lanes, and the zone's first word. -/
theorem test_readTable_words :
    (tableWords 11 0 locked).bind (·[75]?) = some 0x31020000 ∧ (tableWords 11 0 locked).bind (·[76]?) = some 0x00201000 ∧
    (tableWords 6 0 locked).bind (·[0]?) = some 0x02A80000 := by decide +kernel
/-- R35: -40 is stored as -32 and answered CLAMPED. -/
theorem test_setBalance : (after (.setBalance toA (BitVec.ofInt 8 (-40))) locked).gain.cabin.balance = -32 ∧
    codeOf (after (.setBalance toA (BitVec.ofInt 8 (-40))) locked) = 1 := by decide +kernel
/-- R36. -/
theorem test_setFade : (after (.setFade toA 32) locked).gain.cabin.fade = 32 ∧
    codeOf (after (.setFade toA 32) locked) = 0 := by decide +kernel
/-- R37: entries are clamped to 0 to 768. -/
theorem test_loadBalanceCurve :
    let e : Vector (BitVec 12) 32 := ((Vector.replicate 32 0).set 0 0xFFF).set 31 769
    let t := after (.loadBalanceCurve toA e) locked
    t.gain.cabin.balanceCurve[0] = 0 ∧ t.gain.cabin.balanceCurve[31] = 768 ∧ codeOf t = 1 := by decide +kernel
theorem test_loadFadeCurve :
    let t := after (.loadFadeCurve toA ((Vector.replicate 32 0).set 3 24)) locked
    t.gain.cabin.fadeCurve[3] = 24 ∧ codeOf t = 0 := by decide +kernel
/-- R42, R45: zone A at volume -160. -/
theorem test_setChannelTrim :
    let s := { locked with gain.zones.a := caseZone }
    (after (.setChannelTrim toA 23 200) s).gain.targets.user[23] = -64 ∧
      codeOf (after (.setChannelTrim toA 24 0) s) = 4 := by decide +kernel
/-- Chapter 5: channel 2's own flag holds it. -/
theorem test_setChannelMute :
    let s := { locked with gain.zones.a.mute := false }
    (after (.setChannelMute toA 2 1) s).gain.mutes[2] = true ∧
      (after (.setChannelMute toA 2 0) s).gain.targets.mute[2] = 0 := by decide +kernel
/-- R39, chapter 10: step 70 stores 63, answered CLAMPED; V is then 0. -/
theorem test_setVolume : (after (.setVolume toA 70) locked).gain.zones.a.step = 63 ∧
    (after (.setVolume toA 70) locked).gain.targets.user[4] = 0 ∧ codeOf (after (.setVolume toA 70) locked) = 1 := by
  decide +kernel
/-- R40: from step 0, down by one is clamped. -/
theorem test_stepVolume : (after (.stepVolume toB 5) locked).gain.zones.b.step = 5 ∧
    (after (.stepVolume toB (BitVec.ofInt 8 (-1))) locked).gain.zones.b.step = 0 ∧
    codeOf (after (.stepVolume toB (BitVec.ofInt 8 (-1))) locked) = 1 := by decide +kernel
/-- R41. -/
theorem test_loadVolumeCurve :
    let t := after (.loadVolumeCurve toA ((Vector.replicate 64 0).set 63 97)) locked
    t.gain.zones.a.curve[63] = 96 ∧ t.gain.targets.user[0] = 0 ∧ codeOf t = 1 := by decide +kernel
/-- R74: zone B's flag leaves the channels of zone A muted. -/
theorem test_setZoneMute :
    (after (.setZoneMute toA 0) locked).gain.targets.mute[7] = 0 ∧
    (after (.setZoneMute toB 0) locked).gain.targets.mute[7] = -768 := by decide +kernel
/-- Chapter 5: SET_DUCK B, set. -/
theorem test_setDuck :
    let s := { locked with gain.zones.b := { ZoneRecord.reset with depth := 96, mask := false } }
    (after (.setDuck toB 1) s).gain.targets.duck = { a := 0, b := -96 } := by decide +kernel
/-- R78, R109: depth above 768 and exponent below 8 are clamped. -/
theorem test_setZoneOptions :
    let t := after (.setZoneOptions toA { depth := 1000, ceiling := 0, exponent := 7, mask := 1, speedPages := 1 }) locked
    t.gain.zones.a.depth = 768 ∧ t.gain.zones.a.exponent = 8 ∧ codeOf t = 1 := by decide +kernel
/-- R65: the count stands; the second step of the speed lane is not used and not clamped (chapter 4). -/
theorem test_setRamp :
    let t := after (.setRamp toA 1 9 2 0) locked
    t.ramp.lanes.speed = { period := 9, first := 2, second := 0, count := 2400 } ∧ codeOf t = 0 ∧
      codeOf (after (.setRamp toA 4 0 1 1) locked) = 4 := by decide +kernel
/-- R87, R91: a first reading is accepted outright, 500 taken as 400. -/
theorem test_vehicleState : (after (.vehicleState toAll 500 true) locked).speed.accepted = 400 ∧
    (after (.vehicleState toAll 500 false) locked).speed.accepted = 0 := by decide +kernel
/-- R95: in STALE both speeds take the new fallback. -/
theorem test_setSpeedPolicy :
    let t := after (.setSpeedPolicy toA { jump := 300, hysteresis := 3, timeout := 50, fallback := 60 }) locked
    t.speed.effective = 60 ∧ t.speed.jump = 255 ∧ codeOf t = 1 := by decide +kernel
/-- R100, R102: chapter 3's zone A curve at 100 km/h gives B = 32; equal speeds are BAD_ORDER. -/
theorem test_loadSdvCurve :
    let p : BitVec 10 → BitVec 10 → BreakpointWord := fun v b => { speed := v, boost := b, pagePresent := false, page := 0 }
    let s := { locked with speed.effective := 100 }
    (after (.loadSdvCurve toA [p 0 0, p 60 0, p 120 48, p 180 72]) s).gain.zones.a.boost = 32 ∧
      codeOf (after (.loadSdvCurve toA [p 500 0, p 400 0]) s) = 5 ∧ codeOf (after (.loadSdvCurve toA [p 0 0]) s) = 3 := by
  decide +kernel
/-- R18: the output slot of an enabled channel is refused. -/
theorem test_loadSource : (after (.loadSource toA 7 true 2) oneChannel).sources[7] = some 2 ∧
    codeOf (after (.loadSource toA 7 true 12) oneChannel) = 9 ∧ codeOf (after (.loadSource toA 8 true 2) oneChannel) = 4 := by
  decide +kernel
/-- R22, R23: x beyond 8 is clamped; a slot another channel writes is refused. -/
theorem test_loadChannel :
    let w : ChannelWord := { channel := 3, slotPresent := true, slot := 10, zone := true, x := 9, y := 0, trim := 0, weight := 16 }
    let t := after (.loadChannel toA w [{ source := 1, gain := 0, duck := true }]) oneChannel
    t.channels[3] = { out := some 10, zone := .b, x := 8, y := 0, trim := 0, weight := 16,
                      taps := [{ source := 1, gain := 0, duck := true }] } ∧ codeOf t = 1 ∧
      codeOf (after (.loadChannel toA { w with slot := 12 } []) oneChannel) = 9 := by decide +kernel
/-- R25, R139: disabling a channel in mid-fade leaves it STEADY on the target, with its slot free. -/
theorem test_loadChannel_disables :
    let w : ChannelWord := { channel := 0, slotPresent := false, slot := 0, zone := false, x := 0, y := 0, trim := 0, weight := 16 }
    let t := after (.loadChannel toA w []) fading
    t.sched.slots[0] = none ∧ t.port.delays[0] = Delay.empty := by decide +kernel
/-- R114, R115: chapter 8's rows 1 and 3. -/
theorem test_loadSection : (after (.loadSection toA 20 caseSection) locked).equaliser.sections[20].valid = true ∧
    codeOf (after (.loadSection toA 20 (withA (-7549747) 3355443)) locked) = 7 ∧
    codeOf (after (.loadSection toA 96 caseSection) locked) = 4 := by decide +kernel
/-- R118: page 0 is every channel's active page; section 24 is not valid. -/
theorem test_loadProgram : (after (.loadProgram toA 2 0 []) locked).equaliser.programs[2][0] = [] ∧
    codeOf (after (.loadProgram toA 0 0 []) locked) = 8 ∧ codeOf (after (.loadProgram toA 2 0 [24]) locked) = 6 := by
  decide +kernel
/-- R107, R133: the disabled channels of the zone switch at once, the enabled one takes slot 0. -/
theorem test_selectPage :
    let t := after (.selectPage toA 2) oneChannel
    t.gain.zones.a.requestedPage = 2 ∧ t.sched.switch[1] = .steady 2 ∧ t.sched.switch[0] = .fading 0 0 ∧
      t.sched.settled.a = false := by decide +kernel
/-- R162: disabling a kind drops its pending notice. -/
theorem test_setNoticeEnable :
    let s := { locked with notices.enabled.clip := true, notices.pending.clip := true }
    (after (.setNoticeEnable toA { NoticeSet.empty with relock := true }) s).notices.pending.clip = false ∧
      (after (.setNoticeEnable toA { NoticeSet.empty with relock := true }) s).notices.enabled.relock = true := by
  decide +kernel
/-- R164, R173: the poll empties the pending set; code 3, CTRL_LOST pending, LOCKED, STALE, both zones settled. -/
theorem test_statusPoll :
    let s := { locked with notices.enabled.ctrlLost := true, notices.pending.ctrlLost := true }
    (after (.statusPoll toA) s).notices.pending = NoticeSet.empty ∧ statusWords s = [0x64460000, 0] := by decide +kernel
/-- R166: a part with a notice pending marks its bit. -/
theorem test_rollCall :
    let s := { locked with notices.roll := .whenPending 5, notices.pending.clip := true,
                           ringOut := some { frame := idleRing, judged := .intact } }
    ((after (.rollCall toAll) s).ringOut.map fun o => o.frame.fields.roll) = some 32 := by decide +kernel
/-- R165. -/
theorem test_rollCallAssign : (after (.rollCallAssign toA 2 7) locked).notices.roll = .whenClear 7 ∧
    codeOf (after (.rollCallAssign toA 1 8) locked) = 4 ∧ codeOf (after (.rollCallAssign toA 3 0) locked) = 4 := by
  decide +kernel
/-- R168, R173: the meters are read and restart at 0. -/
theorem test_readMeters :
    let s := { locked with output := { clips := (Vector.replicate 24 0).set 1 3, peaks := { a := 8388608, b := 1 } } }
    (after (.readMeters toA) s).output = OutputStage.reset ∧
      (meterWords s).take 3 = [0x80000000, 0x00000100, 0x00000003] := by decide +kernel

/-! ### Witnesses: states and operands that meet the hypotheses of the statements -/

/-- A state at work that meets every invariant: LOCKED, zone A on its way to page 1 with channel 0 in mid-fade, one source
present. -/
def busy : State :=
  { locked with
    port.misses := 1
    sources := locked.sources.set 7 (some 31)
    channels := locked.channels.set 0
      { out := some 12, zone := .a, x := -8, y := 15, trim := 0, weight := 16,
        taps := [{ source := 7, gain := -768, duck := true }] }
    equaliser.target := locked.equaliser.target.set 0 (some [])
    sched :=
      { switch := (Vector.replicate 24 (.steady 1)).set 0 (.fading 0 0),
        slots := (Vector.replicate 8 none).set 0
          (some { channel := 0, old := 0, target := 1, k := 1022, length := 1024, next := none }),
        queue := [], settled := { a := false, b := true } }
    gain.zones.a.userPage := 1
    gain.zones.a.requestedPage := 1
    pending := [.clear] }

/-- busy with its fade one frame from the end. -/
def ending : State := setSlot 0 (some { channel := 0, old := 0, target := 1, k := 1023, length := 1024, next := none }) busy

theorem witness_ready : Ready locked toA ∧ Ready busy toB :=
  ⟨⟨by decide, by decide, by decide, by decide⟩, ⟨by decide, by decide, by decide, by decide⟩⟩
theorem witness_readyBroadcast : ReadyBroadcast locked toAll ∧ ReadyBroadcast busy toAll :=
  ⟨⟨by decide, by decide, by decide⟩, ⟨by decide, by decide, by decide⟩⟩
theorem witness_readyTwin : Ready { locked with port.twin := true, port.address := 30 } { address := 30, zoneBit := true } :=
  ⟨by decide, by decide, by decide, by decide⟩

theorem busy_lanes : LanesInv busy :=
  ⟨⟨by decide +kernel, by decide +kernel, by decide +kernel, by intro z; cases z <;> decide +kernel⟩,
   ⟨by decide +kernel, by decide +kernel, by decide +kernel, by intro z; cases z <;> decide +kernel⟩,
   by intro z; cases z <;> decide +kernel⟩
theorem busy_counters : CountersInv busy :=
  ⟨by intro l; cases l <;> exact ⟨by decide, by decide, by decide, by decide⟩, by decide⟩
theorem busy_speed : SpeedInv busy :=
  ⟨by decide, by decide, by decide, by decide, by decide, by decide⟩
theorem busy_notices : NoticesInv busy := by intro k; cases k <;> decide
theorem busy_meters : MetersInv busy := ⟨by decide +kernel, by intro z; cases z <;> decide⟩
theorem busy_plan : PlanInv busy :=
  ⟨by decide +kernel, by decide +kernel, by decide +kernel, by intro z; cases z <;> decide +kernel,
   by intro z; cases z <;> decide +kernel, by intro z; cases z <;> decide +kernel,
   by intro z; cases z <;> decide +kernel⟩
theorem busy_routing : RoutingInv busy := by
  refine ⟨?_, ?_, by decide +kernel, by decide +kernel, by decide +kernel⟩
  · have h : ∀ c : Chan, busy.channels[c].out = if c = 0 then some 12 else none := by decide +kernel
    intro c d k hc hd
    rw [h] at hc hd
    split at hc <;> split at hd <;> simp_all
  · have h : ∀ c : Chan, busy.channels[c].out = if c = 0 then some 12 else none := by decide +kernel
    have g : ∀ i : SourceId, busy.sources[i] ≠ some 12 := by decide +kernel
    intro c i k hc
    rw [h] at hc
    split at hc <;> simp_all
theorem busy_disabled : DisabledInv busy := ⟨by decide +kernel, by decide +kernel⟩
theorem busy_sched : SchedInv busy :=
  ⟨by decide +kernel, by decide +kernel, by decide +kernel, by decide +kernel, by decide +kernel, by decide,
   by decide +kernel, by decide, by decide +kernel, by intro z; cases z <;> decide⟩
theorem busy_pages : PagesInv busy := ⟨by decide +kernel, by intro z; cases z <;> decide +kernel⟩
theorem busy_equaliser : EqualiserInv busy :=
  ⟨by decide +kernel, by decide +kernel, by decide +kernel, by decide +kernel⟩
theorem busy_port : PortInv busy :=
  ⟨by decide, fun _ _ _ e => (nomatch e), fun _ e => (nomatch e), fun _ _ _ e => (nomatch e)⟩
theorem busy_lost : LostInv busy :=
  ⟨by decide, by decide, by decide, by decide, by decide, by decide, by decide, by decide⟩
theorem busy_held : HeldInReset busy := by intro h; cases h
theorem ending_sched : SchedInv ending :=
  ⟨by decide +kernel, by decide +kernel, by decide +kernel, by decide +kernel, by decide +kernel, by decide,
   by decide +kernel, by decide, by decide +kernel, by intro z; cases z <;> decide⟩
theorem ending_equaliser : EqualiserInv ending :=
  ⟨by decide +kernel, by decide +kernel, by decide +kernel, by decide +kernel⟩

theorem witness_StepRunsFront : busy.pending = .clear :: [] ∧ locked.pending = [] := by decide
theorem witness_LaneSettingsAfterReset : ReadyBroadcast busy toAll ∧
    (answering .deviceReset busy).port.sender = .answering 7 [] .deviceReset ∧ State.reset.port.lock = .unlocked :=
  ⟨witness_readyBroadcast.2, by decide, by decide⟩

/-- A header of SET_VOLUME to address 0. -/
def volumeHeader : Header := { route := toA, space := 3, command := 1, count := 1 }

/-- Collecting a SET_VOLUME while an answer goes out. -/
def collecting : State := setAssembler (.collecting volumeHeader 1 []) (answering .nothing busy)

theorem witness_LockTransitions :
    (State.reset.pins.reset = false ∧ State.reset.port.lock = .unlocked) ∧
    (setLock .acquiring 0 State.reset).port.lock = .acquiring ∧
    ((setLock .locked 2 busy).pins.reset = false ∧ (setLock .locked 2 busy).port.lock = .locked ∧
      (setLock .locked 2 busy).port.misses ≤ 2 ∧ (setLock .locked 2 busy).port.assembler = .idle ∧
      (setLock .locked 2 busy).port.sender = .quiet) ∧
    (collecting.pins.reset = false ∧ collecting.port.lock = .locked ∧ collecting.port.misses ≤ 2 ∧
      isCollecting collecting.port.assembler = true ∧ collecting.port.sender.deferred = .nothing ∧
      (answering .deviceReset collecting).port.sender.deferred = .deviceReset) ∧
    (after .resetPinAsserted busy).pins.reset = true := by decide

/-- busy at its third miss in a row, collecting. -/
def losing : State := setLock .locked 3 (setAssembler (.collecting volumeHeader 1 []) busy)

theorem losing_sched : SchedInv losing := ⟨busy_sched.fading, busy_sched.occupied, busy_sched.pages, busy_sched.progress,
  busy_sched.waiting, busy_sched.once, busy_sched.queued, busy_sched.full, busy_sched.disabled, busy_sched.exponent⟩
theorem losing_equaliser : EqualiserInv losing :=
  ⟨busy_equaliser.live, busy_equaliser.active, busy_equaliser.target, busy_equaliser.programs⟩
theorem witness_LockLossBringsRest :
    losing.pins.reset = false ∧ losing.port.lock = .locked ∧ losing.port.misses = 3 ∧
    (Instr.syncMissing = .syncMissing ∧ (none : Option OutFrame) = none) ∧
    SchedInv losing ∧ EqualiserInv losing ∧ losing.port.sender.deferred = .nothing ∧
    (answering (.newAddress 30 true) losing).port.sender.deferred = .newAddress 30 true :=
  ⟨by decide, by decide, by decide, ⟨rfl, rfl⟩, losing_sched, losing_equaliser, by decide, by decide⟩
theorem witness_ClearWord : busy.pins.reset = false ∧ busy.port.lock = .locked ∧ busy.port.sender = .quiet ∧
    (answering .nothing busy).port.sender = .answering 7 [] .nothing ∧
    (answering (.newAddress 30 true) busy).port.sender = .answering 7 [] (.newAddress 30 true) ∧
    (answering .deviceReset busy).port.sender = .answering 7 [] .deviceReset ∧
    (after .resetPinAsserted busy).pins.reset = true ∧ State.reset.port.lock ≠ .locked := by decide
theorem witness_PortCommands : Ready locked toA ∧ ReadyBroadcast locked toAll ∧ locked.port.sender = .quiet ∧
    (answering (.newAddress 30 true) locked).port.sender = .answering 7 [] (.newAddress 30 true) ∧
    (answering .deviceReset locked).port.sender = .answering 7 [] .deviceReset ∧
    (answering .deviceReset locked).port.lock = .locked ∧ (answering .deviceReset locked).port.misses ≤ 2 ∧
    ReadyBroadcast (answering (.newAddress 30 true) locked) toAll ∧
    (answering (.newAddress 30 true) locked).port.sender.deferred = .newAddress 30 true ∧
    (∀ (n : Fin 31) (twin : Bool), (answering .deviceReset locked).port.sender.deferred ≠ .newAddress n twin) :=
  ⟨witness_ready.1, witness_readyBroadcast.1, by decide, by decide, by decide, by decide, by decide,
   ⟨by decide, by decide, by decide⟩, by decide, by decide⟩
theorem witness_Addressing : locked.port.twin = false ∧ { locked.port with twin := true }.twin = true ∧
    (30 : BitVec 5) ≠ 31 := by decide
/-- An intact frame in hand with these fields. -/
def intactOut (f : FrameFields) : OutFrame :=
  { frame := { sync := 0xB5C3, fields := f, check := checkValue f }, judged := .intact }

theorem intactOut_check (f : FrameFields) : (intactOut f).frame.check = checkValue (intactOut f).frame.fields := rfl

/-- busy with an intact frame in hand. -/
def calling : State := { busy with ringOut := some (intactOut idleFrame), notices.roll := .whenPending 7 }

theorem witness_ControlWordTable :
    locked.port.assembler = .idle ∧ 2 ≤ 2 ∧
    (setAssembler (.collecting volumeHeader 2 [0]) busy).port.assembler = .collecting volumeHeader 2 [0] ∧
    (setAssembler (.collecting volumeHeader 1 []) busy).port.assembler = .collecting volumeHeader 1 [] ∧
    (setAssembler (.skipping 2) busy).port.assembler = .skipping 2 ∧
    (setAssembler (.skipping 1) busy).port.assembler = .skipping 1 ∧
    (answersTo locked.port 0 = true ∧ ¬ callsRoll volumeHeader) ∧
    ((5 : BitVec 5) ≠ 31 ∧ answersTo locked.port 5 = false) ∧
    callsRoll { route := toAll, space := 8, command := 3, count := 0 } ∧
    calling.ringOut = some (intactOut idleFrame) ∧ (intactOut idleFrame).judged = .intact ∧
    calling.notices.roll = .whenPending 7 :=
  ⟨by decide, by decide, by decide, by decide, by decide, by decide, ⟨by decide, by simp [callsRoll, volumeHeader]⟩,
   by decide, ⟨rfl, rfl, rfl⟩, rfl, rfl, rfl⟩
theorem witness_MessageRoundTrip :
    sendable (.loadSdvCurve (List.replicate 254 { speed := 1023, boost := 0, pagePresent := true, page := 3 })) = true ∧
    sendable (.loadChannel
      { channel := 255, slotPresent := true, slot := 31, zone := true, x := 16, y := 31, trim := 512, weight := 31 }
      (List.replicate 7 { source := 255, gain := 0x800, duck := true })) = true ∧
    sendable (.loadProgram 15 255 (List.replicate 15 255)) = true ∧ sendable .readMeters = true ∧ 192 ≤ 255 := by
  decide +kernel
theorem witness_MessageReadingIsExact : readMessage 3 1 [byteWord 70] = .command (.setVolume 70) ∧
    readMessage 5 3 [0] = .command (.loadSdvCurve []) ∧ readMessage 3 1 [byteWord 70 ||| 1] = .command (.setVolume 70) ∧
    (byteWord 70 ||| 1 : Payload) >>> (30 - assignedBits 3 1 0) <<< (30 - assignedBits 3 1 0) = byteWord 70 ∧
    requiredWords 6 2 (some 0x7000) = some 9 ∧ requiredWords 7 2 none = none ∧
    (byteWord 254 :: List.replicate 254 (0 : Payload)).length ≤ 255 ∧
    ((byteWord 254).extractLsb' 22 8).toNat = (List.replicate 254 (0 : Payload)).length ∧
    ((0x7000 : Payload).extractLsb' 12 3).toNat = (List.replicate 7 (0 : Payload)).length ∧
    ((0x3C000 : Payload).extractLsb' 14 4).toNat = (List.replicate 15 (0 : Payload)).length := by decide +kernel
theorem witness_MessageIsTheRow : readMessage 3 1 [byteWord 70] = .command (.setVolume 70) ∧
    readMessage 8 3 [] = .command .rollCall ∧ readMessage 1 2 [] = .command .deviceReset ∧
    busy.pins.reset = false ∧ busy.port.lock = .locked ∧
    answersTo busy.port 0 = true ∧ Command.setVolume 70 ≠ .rollCall ∧ toAll.address = 31 ∧ toA.address ≠ 31 ∧
    busy.port.sender = .quiet ∧ collecting.port.sender = .answering 7 [] .nothing ∧
    readMessage 0 0 [] = .unknown ∧ readMessage 3 1 [] = .badLength := by decide +kernel
theorem witness_CommandsNotTaken : collecting.pins.reset = false ∧ collecting.port.lock = .locked ∧
    answersTo collecting.port toA.address = true ∧ (∃ w rest d, collecting.port.sender = .answering w rest d) ∧
    (after .resetPinAsserted busy).pins.reset = true ∧ State.reset.port.lock ≠ .locked ∧
    ((5 : BitVec 5) ≠ 31 ∧ answersTo busy.port 5 = false) ∧ toAll.address = 31 :=
  ⟨by decide, by decide, by decide, ⟨7, [], .nothing, by decide⟩, by decide, by decide, by decide, by decide⟩
theorem witness_RefusedChangesNothing : (takeCommand .a locked (.setChannelTrim 24 0)).code = .badIndex := by decide
/-- Eight channels in mid-fade, one frame from their ends, the first to page 1 and then back to page 3; channel 8 waits. -/
def full : State :=
  { locked with
    channels := Vector.ofFn fun c : Chan =>
      if c.val < 9 then { frontDoor with out := some ⟨c.val, by omega⟩ } else ChannelRecord.reset
    equaliser.target := Vector.ofFn fun c : Chan => if c.val < 8 then some [] else none
    sched :=
      { switch := Vector.ofFn fun c : Chan =>
          if h : c.val < 8 then .fading 0 ⟨c.val, h⟩ else if c.val = 8 then .queued 0 3 else .steady 3,
        slots := Vector.ofFn fun i : FadeSlot =>
          some { channel := ⟨i.val, by omega⟩, old := 0, target := 1, k := 255, length := 256, next := some 3 },
        queue := [8], settled := { a := false, b := true } }
    gain.zones.a.userPage := 3
    gain.zones.a.requestedPage := 3 }

theorem full_sched : SchedInv full :=
  ⟨by decide +kernel, by decide +kernel, by decide +kernel, by decide +kernel, by decide +kernel, by decide +kernel,
   by decide +kernel, by decide +kernel, by decide +kernel, by intro z; cases z <;> decide⟩
theorem full_equaliser : EqualiserInv full :=
  ⟨by decide +kernel, by decide +kernel, by decide +kernel, by decide +kernel⟩

theorem witness_ReadTable : Ready busy toA ∧
    (∀ n ∈ [1, 2, 4, 5, 6, 7, 8, 9, 10, 11], (tableWords n 0 busy).isSome = true) ∧
    (∀ p : Fin 3, (tableWords 3 p.val busy).isSome = true) ∧ (95 : SectionId).val = 32 * (2 : Fin 3).val + (31 : Fin 32).val ∧
    (63 : Fin 64).val = 2 * (31 : Fin 32).val + 1 ∧ (31 : Fin 32).val = 2 * (15 : Fin 16).val + 1 ∧
    busy.sched.switch[(23 : Chan)] = .steady 1 ∧ full.sched.switch[(8 : Chan)] = .queued 0 3 ∧
    full.sched.queue[0]? = some 8 ∧
    (full.sched.switch[(7 : Chan)] = .fading 0 7 ∧ full.sched.slots[(7 : FadeSlot)] =
      some { channel := 7, old := 0, target := 1, k := 255, length := 256, next := some 3 }) ∧
    busy.sched.slots[(7 : FadeSlot)] = none ∧ [Lane.user, .speed, .mute, .duck][3]? = some .duck :=
  ⟨⟨by decide, by decide, by decide, by decide⟩, by decide +kernel, by decide +kernel, by decide, by decide, by decide,
   by decide, by decide +kernel, by decide, ⟨by decide +kernel, by decide +kernel⟩, by decide, by decide⟩

/-- busy at balance -32, whose curve entry is 0. -/
def left : State := { busy with gain.cabin.balance := -32 }

theorem witness_SetBalanceStores : PlanInv left ∧ (224 : BitVec 8).toInt = -32 ∧ left.gain.cabin.balance = -32 ∧
    Ready left toA :=
  ⟨⟨by decide +kernel, busy_plan.speed, busy_plan.mute, busy_plan.duck, busy_plan.boost, busy_plan.band,
    busy_plan.requested⟩, by decide, by decide, ⟨by decide, by decide, by decide, by decide⟩⟩
theorem witness_SetFadeStores : Ready busy toA ∧ (32 : BitVec 8).toInt = 32 ∧ (33 : BitVec 8).toInt = 33 :=
  ⟨⟨by decide, by decide, by decide, by decide⟩, by decide, by decide⟩
theorem witness_TrimMuteAndDuck : 24 ≤ (24 : BitVec 8).toNat ∧ (23 : BitVec 8).toNat = (23 : Chan).val ∧
    Ready busy toB := ⟨by decide, by decide, witness_ready.2⟩
theorem witness_LoadAttenuationCurves : Ready locked toA ∧ (768 : BitVec 12).toInt = 768 ∧ (769 : BitVec 12).toInt = 769 :=
  ⟨witness_ready.1, by decide, by decide⟩
theorem witness_VolumeCommands : Ready busy toB ∧ (busy.gain.zones.get .b).step.val ≤ 63 := ⟨witness_ready.2, by decide⟩
theorem witness_SetZoneOptions : Ready busy toB ∧ SchedInv busy ∧ PagesInv busy := ⟨witness_ready.2, busy_sched, busy_pages⟩
theorem witness_SpeedCommands : Ready busy toB ∧ SchedInv busy ∧ PagesInv busy ∧ busy.speed.fresh = false :=
  ⟨witness_ready.2, busy_sched, busy_pages, by decide⟩

/-- A cabin at full left and full rear, with full cuts. -/
def cutting : Cabin :=
  { balance := -32, fade := 32, balanceCurve := Vector.replicate 32 768, fadeCurve := Vector.replicate 32 768 }

theorem witness_Attenuations : (∀ k : Fin 32, cutting.balanceCurve[k] ≤ 768) ∧ (∀ k : Fin 32, cutting.fadeCurve[k] ≤ 768) ∧
    (-32 ≤ cutting.balance ∧ cutting.balance ≤ 32 ∧ cutting.balance < 0) ∧
    (-32 ≤ cutting.fade ∧ cutting.fade ≤ 32 ∧ 0 < cutting.fade) ∧
    cutting.balance.natAbs = (31 : Fin 32).val + 1 ∧ balanceDistance cutting.balance 8 = 8 ∧
    balanceDistance cutting.balance (-8) = 0 ∧ fadeDistance cutting.fade 0 = 15 ∧ fadeDistance cutting.fade 15 = 0 ∧
    balanceDistance 32 (-8) = 8 ∧ fadeDistance (-32) 15 = 15 ∧ fadeDistance (-1) 0 = 0 := by decide +kernel
theorem witness_UserTarget : cutting.balance.natAbs = (31 : Fin 32).val + 1 ∧
    cutting.balanceCurve[(31 : Fin 32)] = 768 ∧ balanceDistance cutting.balance 8 = 8 ∧
    cutting.fade.natAbs = (31 : Fin 32).val + 1 ∧ cutting.fadeCurve[(31 : Fin 32)] = 768 ∧
    fadeDistance cutting.fade 0 = 15 ∧ balanceDistance cutting.balance 7 ≠ 8 ∧ fadeDistance cutting.fade 1 ≠ 15 ∧
    cutting.balance.natAbs ≤ 32 ∧ cutting.fade.natAbs ≤ 32 := by decide +kernel
theorem witness_SpeedTargetUnderCeiling : -96 ≤ caseZone.boost ∧ caseZone.boost ≤ 96 ∧ frontDoor.weight ≤ 16 ∧
    0 < (caseZone.boost * (frontDoor.weight : Int) + 8) / 16 ∧
    0 < speedTarget caseZone frontDoor ∧
    ({ caseZone with curve := Vector.replicate 64 (-24) } : ZoneRecord).ceiling ≤ -24 := by decide +kernel
theorem witness_SdvCurveReading : speedsRise caseCurve = true ∧
    caseCurve = caseCurve.take 1 ++ caseCurve[1] :: caseCurve[2] :: caseCurve.drop 3 ∧
    (caseCurve[1].speed ≤ 60 ∧ 60 < caseCurve[2].speed) ∧ (caseCurve[1].speed ≤ 119 ∧ 119 < caseCurve[2].speed) ∧
    caseCurve = caseCurve.take 3 ++ [caseCurve[3]] ∧ caseCurve[3].speed ≤ 180 ∧
    speedsRise (caseCurve.drop 1) = true ∧ 59 < caseCurve[1].speed := by decide
/-- Zone A of the worked case with its speed pages option set, in band 1, whose breakpoint has page 2 or none. -/
def paging (page : Option Page) : ZoneRecord :=
  { caseZone with speedPages := true, band := 1,
                  sdv := [{ speed := 0, boost := 0, page := none }, { speed := 60, boost := 20, page := page }] }

/-- The hypotheses of the clauses on the requested page, and what R105 gives there. -/
theorem witness_RequestedPage : caseZone.speedPages = false ∧
    ((paging (some 2)).speedPages = true ∧
      (paging (some 2)).sdv[(paging (some 2)).band]? = some { speed := 60, boost := 20, page := some 2 }) ∧
    evalRequested (paging (some 2)) = 2 ∧ evalRequested (paging none) = caseZone.userPage ∧
    speedsRise (paging (some 2)).sdv = true ∧ ((paging (some 2)).atSpeed 60).requestedPage = 2 ∧
    ((paging (some 2)).atSpeed 59).requestedPage = caseZone.userPage := by decide
theorem witness_SetRamp : 4 ≤ (4 : BitVec 4).toNat ∧ (0 : BitVec 4).toNat = 0 ∧ (1 : BitVec 4).toNat = 1 ∧
    (2 : BitVec 4).toNat = 2 ∧ (3 : BitVec 4).toNat = 3 ∧ Ready busy toA :=
  ⟨by decide, by decide, by decide, by decide, by decide, ⟨by decide, by decide, by decide, by decide⟩⟩

/-- busy with every count at its last step, FRESH at 74 with 72 accepted. -/
def due : State :=
  { busy with
    ramp.lanes := { user := { busy.ramp.lanes.user with count := 1 }, speed := { busy.ramp.lanes.speed with count := 1 },
                    mute := { busy.ramp.lanes.mute with count := 1 }, duck := { busy.ramp.lanes.duck with count := 1 } }
    speed := { tracker with accepted := 72, effective := 74, counter := 1, fallback := 50 }
    duck := { count := 1, previous := true, level := false } }

theorem due_sched : SchedInv due := ⟨busy_sched.fading, busy_sched.occupied, busy_sched.pages, busy_sched.progress,
  busy_sched.waiting, busy_sched.once, busy_sched.queued, busy_sched.full, busy_sched.disabled, busy_sched.exponent⟩
theorem due_counters : CountersInv due :=
  ⟨by intro l; cases l <;> exact ⟨by decide, by decide, by decide, by decide⟩, by decide⟩
theorem witness_LaneTick : due.pins.reset = false ∧ due.port.lock = .locked ∧
    (∀ l ∈ [Lane.user, .speed, .mute, .duck], (due.ramp.lanes.get l).count = 1) ∧
    (busy.ramp.lanes.get .user).count ≠ 1 := by decide
theorem witness_SpeedJudging : (400 ≤ 400) ∧ SpeedTracker.reset.fresh = false ∧
    (tracker.fresh = true ∧ tracker.candidate = none ∧ 120 ≤ tracker.accepted + tracker.jump) ∧
    ¬ (121 ≤ tracker.accepted + tracker.jump) ∧ tracker.jump ≠ 0 ∧
    ({ tracker with candidate := some 160 }.candidate = some 160 ∧ 162 ≤ 160 + tracker.jump ∧ 160 ≤ 162 + tracker.jump) ∧
    (¬ (160 ≤ 130 + tracker.jump) ∧ ¬ (130 ≤ tracker.accepted + tracker.jump)) := by decide
theorem witness_StalenessExpiry : due.pins.reset = false ∧ due.port.lock = .locked ∧ due.speed.fresh = true ∧
    due.speed.counter = 1 ∧ busy.speed.fresh = false := by decide

/-- A breakpoint word with a page. -/
def point (v b : BitVec 10) : BreakpointWord := { speed := v, boost := b, pagePresent := true, page := 3 }

/-- What the statement makes of a word. -/
def toPoint (w : BreakpointWord) : Breakpoint :=
  { speed := min 400 w.speed.toNat, boost := max (-96) (min 96 w.boost.toInt),
    page := if w.pagePresent = true then some w.page.toFin else none }

theorem witness_LoadSdvCurve :
    ([point 0 0].length < 2 ∧ 16 < (List.replicate 17 (point 0 0)).length) ∧
    ¬ ([point 400 0, point 500 0].map toPoint).Pairwise (fun p q => p.speed < q.speed) ∧
    ([point 0 0, point 400 511].map toPoint).Pairwise (fun p q => p.speed < q.speed) := by decide +kernel
theorem witness_DuckSample : due.pins.reset = false ∧ due.port.lock = .locked ∧ due.duck.count = 1 ∧
    (true ≠ due.duck.level ∧ true = due.duck.previous) ∧ false = due.duck.level ∧ busy.duck.count ≠ 1 := by decide
theorem witness_LoadSource : 8 ≤ (8 : BitVec 8).toNat ∧ (7 : BitVec 8).toNat < 8 ∧
    busy.channels[(0 : Chan)].out = some (12 : BitVec 5).toFin ∧ (7 : BitVec 8).toNat = (7 : SourceId).val ∧
    (∀ c : Chan, busy.channels[c].out ≠ some (31 : BitVec 5).toFin) := by decide +kernel

/-- The two fixed words of a load of channel 23 to slot 11. -/
def load23 : ChannelWord :=
  { channel := 23, slotPresent := true, slot := 11, zone := true, x := 8, y := 15, trim := 96, weight := 16 }

theorem witness_LoadChannelTaken :
    4 < (List.replicate 5 ({ source := 0, gain := 0, duck := true } : TapWord)).length ∧
    24 ≤ ({ load23 with channel := 24 } : ChannelWord).channel.toNat ∧
    8 ≤ (8 : BitVec 8).toNat ∧ load23.channel.toNat = (23 : Chan).val ∧
    ((0 : Chan) ≠ 23 ∧ busy.channels[(0 : Chan)].out = some ({ load23 with slot := 12 } : ChannelWord).slot.toFin) ∧
    busy.sources[(7 : SourceId)] = some ({ load23 with slot := 31 } : ChannelWord).slot.toFin ∧
    List.Forall₂ (fun (t : TapWord) (u : Tap) => t.source.toNat = u.source.val ∧
        u.gain = max (-768) (min 0 t.gain.toInt) ∧ u.duck = t.duck)
      [{ source := 7, gain := 0x800, duck := true }] [{ source := 7, gain := -768, duck := true }] ∧
    (∀ d : Chan, d ≠ 23 → busy.channels[d].out ≠ some load23.slot.toFin) ∧
    (∀ i : SourceId, busy.sources[i] ≠ some load23.slot.toFin) ∧
    (busy.channels[(23 : Chan)].out.isSome = ChannelRecord.reset.out.isSome ∧
      busy.channels[(23 : Chan)].zone = ChannelRecord.reset.zone) :=
  ⟨by decide, by decide, by decide, by decide, by decide, by decide, .cons (by decide) .nil, by decide +kernel,
   by decide +kernel, by decide⟩
theorem witness_LoadChannelChanges : SchedInv busy ∧ PagesInv busy ∧ DisabledInv busy ∧
    ChannelRecord.reset.out = none ∧ busy.channels[(0 : Chan)].out ≠ none ∧ busy.channels[(23 : Chan)].out = none ∧
    frontDoor.out ≠ none ∧
    (busy.channels[(0 : Chan)].out.isSome = ({ frontDoor with zone := .b } : ChannelRecord).out.isSome ∧
      busy.channels[(0 : Chan)].zone ≠ ({ frontDoor with zone := .b } : ChannelRecord).zone) :=
  ⟨busy_sched, busy_pages, busy_disabled, by decide, by decide, by decide, by decide, by decide, by decide⟩
/-- The same with the queue in use: full meets every hypothesis, channel 7 is FADING, channel 8 waits at the head, and a load
may disable either. -/
theorem witness_LoadChannelGrant : SchedInv full ∧ PagesInv full ∧ DisabledInv full ∧ EqualiserInv full ∧
    full.channels[(7 : Chan)].out.isSome ≠ ChannelRecord.reset.out.isSome ∧
    (full.sched.switch[(7 : Chan)]).slot = some 7 ∧ full.sched.queue = 8 :: [] ∧
    full.sched.switch[(8 : Chan)] = .queued 0 3 ∧
    full.channels[(8 : Chan)].out.isSome ≠ ChannelRecord.reset.out.isSome ∧
    (full.sched.switch[(8 : Chan)]).slot = none ∧ (busy.sched.switch[(0 : Chan)]).slot = some 0 ∧
    busy.sched.queue = [] ∧ EqualiserInv busy :=
  ⟨full_sched, ⟨by decide +kernel, by intro z; cases z <;> decide +kernel⟩, ⟨by decide +kernel, by decide +kernel⟩,
   full_equaliser, by decide +kernel, by decide +kernel, by decide, by decide +kernel, by decide +kernel,
   by decide +kernel, by decide, by decide, busy_equaliser⟩
theorem witness_LoadSectionAndProgram : 96 ≤ (96 : BitVec 8).toNat ∧
    ((withA 4194304 1).a2.toInt = 1 ∧ (withA 4194304 1).a1.toInt = 4194304) ∧
    ¬ (withA 0 4194304).a2.toInt < 4194304 ∧ (95 : BitVec 8).toNat = (95 : SectionId).val ∧
    (addLive [95] busy).equaliser.sections[(95 : SectionId)].live ≠ 0 ∧
    busy.equaliser.sections[(95 : SectionId)].live = 0 ∧
    6 < (List.replicate 7 (0 : BitVec 8)).length ∧ 4 ≤ (4 : BitVec 4).toNat ∧
    List.Forall₂ (fun (e : BitVec 8) (n : SectionId) => e.toNat = n.val) [95] [95] ∧
    busy.equaliser.sections[(95 : SectionId)].valid = false ∧
    (after (.loadSection toA 95 caseSection) busy).equaliser.sections[(95 : SectionId)].valid = true ∧
    (0 : Page) = activePage busy.sched.switch[(0 : Chan)] ∧ targetPage busy 0 = some 1 ∧
    (3 : Page) ≠ activePage busy.sched.switch[(0 : Chan)] ∧ targetPage busy 0 ≠ some 3 :=
  ⟨by decide, by decide +kernel, by decide +kernel, by decide, by decide +kernel, by decide, by decide, by decide,
   .cons (by decide) .nil, by decide, by decide +kernel, by decide, by decide, by decide, by decide⟩
theorem witness_SelectPage : 4 ≤ (4 : BitVec 4).toNat ∧ (3 : BitVec 4).toNat = (3 : Page).val ∧ SchedInv busy ∧
    PagesInv busy := ⟨by decide, by decide, busy_sched, busy_pages⟩

/-- busy with every slot occupied by the fade of channel 0, and channel 1, enabled on slot 13, waiting for page 3. -/
def crowded : State :=
  setQueue [1] (setSwitch 1 (.queued 1 3) (setRecord 1 { frontDoor with out := some 13 }
    { busy with sched.slots := Vector.replicate 8 busy.sched.slots[(0 : FadeSlot)] }))

theorem witness_PageRequestTable :
    (oneChannel.channels[(0 : Chan)].out ≠ none ∧ oneChannel.sched.switch[(0 : Chan)] = .steady 0 ∧
      oneChannel.sched.slots[(0 : FadeSlot)] = none ∧ (3 : Page) ≠ 0) ∧
    (setSlot 0 busy.sched.slots[(0 : FadeSlot)] oneChannel).sched.slots[(1 : FadeSlot)] = none ∧
    (∀ i : FadeSlot, crowded.sched.slots[i] ≠ none) ∧
    (crowded.channels[(1 : Chan)].out ≠ none ∧ crowded.sched.switch[(1 : Chan)] = .queued 1 3) ∧
    (setSwitch 1 (.steady 1) crowded).sched.switch[(1 : Chan)] = .steady 1 ∧
    (busy.channels[(0 : Chan)].out ≠ none ∧ busy.sched.switch[(0 : Chan)] = .fading 0 0 ∧
      (busy.sched.slots[(0 : FadeSlot)]).map Fade.target = some 1) ∧
    (busy.channels[(23 : Chan)].out = none ∧ busy.sched.switch[(23 : Chan)] = .steady 1) := by decide +kernel
theorem witness_FadeCompleteAndGrant : ending.pins.reset = false ∧ ending.port.lock = .locked ∧
    ending.sched.slots[(0 : FadeSlot)] =
      some { channel := 0, old := 0, target := 1, k := 1023, length := 1024, next := none } ∧
    SchedInv ending ∧ EqualiserInv ending ∧ ending.sched.queue = [] ∧
    (busy.sched.slots[(0 : FadeSlot)]).map Fade.k ≠ some 1023 ∧
    ((setSlot 7 none crowded).sched.slots[(7 : FadeSlot)] = none ∧ (setSlot 7 none crowded).sched.queue = 1 :: [] ∧
      (setSlot 7 none crowded).sched.switch[(1 : Chan)] = .queued 1 3) ∧
    State.reset.port.lock ≠ .locked :=
  ⟨by decide, by decide, by decide, ending_sched, ending_equaliser, by decide, by decide, by decide +kernel, by decide⟩

theorem witness_FadeCompleteWithQueue : SchedInv full ∧ EqualiserInv full ∧
    (full.sched.slots[(7 : FadeSlot)]).map (fun f => (f.k + 1, f.length, f.next)) = some (256, 256, some 3) ∧
    full.sched.queue = 8 :: [] ∧ full.sched.switch[(8 : Chan)] = .queued 0 3 :=
  ⟨full_sched, full_equaliser, by decide +kernel, by decide, by decide +kernel⟩
theorem witness_NoticeCommands : 3 ≤ (3 : BitVec 4).toNat ∧ ((1 : BitVec 4).toNat ≠ 0 ∧ 8 ≤ (8 : BitVec 4).toNat) ∧
    (7 : BitVec 4).toNat = (7 : Fin 8).val ∧ ReadyBroadcast calling toAll ∧
    calling.ringOut = some (intactOut idleFrame) ∧ (intactOut idleFrame).judged = .intact ∧
    (intactOut idleFrame).frame.check = checkValue (intactOut idleFrame).frame.fields :=
  ⟨by decide, by decide, by decide, ⟨by decide, by decide, by decide⟩, rfl, rfl, intactOut_check _⟩
theorem witness_PollAndMeters : Ready full toA ∧ full.sched.queue.length ≤ 24 ∧ fadingCount full ≤ 8 ∧
    full.speed.accepted ≤ 400 ∧ full.speed.effective ≤ 400 ∧ MetersInv busy ∧
    (∀ k : NoticeKind, hasKind (addKind NoticeSet.empty k) k = true) ∧ State.reset.notices.pending = NoticeSet.empty :=
  ⟨⟨by decide, by decide, by decide, by decide⟩, by decide, by decide +kernel, by decide, by decide, busy_meters,
   by intro k; cases k <;> rfl, rfl⟩
/-- The frame of a control word, all else silent. -/
def frameOf (w : Word32) : FrameFields := { idleFrame with control := w }

theorem calls_nothing : HandsNothing calling (headerWord toAll .rollCall) :=
  ⟨fun _ => .inr (.inl ⟨by decide, by decide, by decide⟩), fun h => absurd h (by decide)⟩
theorem idle_nothing (s : State) : HandsNothing s 0 := ⟨fun h => absurd h (by decide), fun h => absurd h (by decide)⟩
theorem clear_nothing (s : State) : HandsNothing s 0xC0000000 :=
  ⟨fun h => absurd h (by decide), fun h => absurd h (by decide)⟩
theorem midway_nothing : HandsNothing (setAssembler (.collecting volumeHeader 2 []) busy) 0x80000000 :=
  ⟨fun h => absurd h (by decide), fun _ _ _ _ e => by cases e; decide⟩
theorem calling_routing : RoutingInv calling :=
  ⟨busy_routing.writtenOnce, busy_routing.notRead, busy_routing.taps, busy_routing.placement, busy_routing.levels⟩
theorem calling_sched : SchedInv calling := ⟨busy_sched.fading, busy_sched.occupied, busy_sched.pages, busy_sched.progress,
  busy_sched.waiting, busy_sched.once, busy_sched.queued, busy_sched.full, busy_sched.disabled, busy_sched.exponent⟩
/-- calling, marking its bit 0 where nothing is pending, and nothing pending. -/
def callingClear : State := { calling with notices.roll := .whenClear 0, notices.pending := NoticeSet.empty }

theorem witness_FrameOut : busy.pins.reset = false ∧ busy.port.lock = .locked ∧ HandsNothing busy idleFrame.control ∧
    HandsNothing calling (headerWord toAll .rollCall) ∧ HandsNothing busy (frameOf 0xC0000000).control ∧
    RoutingInv calling ∧ SchedInv calling ∧ calling.notices.roll = .whenPending 7 ∧
    RoutingInv busy ∧ SchedInv busy ∧ busy.port.sender = .quiet ∧ busy.channels[(0 : Chan)].out ≠ none ∧
    busy.channels[(23 : Chan)].out = none ∧
    (answering (.newAddress 30 true) busy).port.sender.deferredIn 0 = .newAddress 30 true ∧
    (answering .deviceReset busy).port.sender.deferredIn 0xC0000000 = .deviceReset ∧
    collecting.port.sender = .answering 7 [] .nothing ∧
    (setSender (.answering 7 [8] .nothing) busy).port.sender = .answering 7 [8] .nothing ∧
    (HandsNothing callingClear (headerWord toAll .rollCall) ∧ RoutingInv callingClear ∧ SchedInv callingClear ∧
      callingClear.notices.roll = .whenClear 0 ∧ anyKind callingClear.notices.pending = false) :=
  ⟨by decide, by decide, idle_nothing _, calls_nothing, clear_nothing _, calling_routing, calling_sched, by decide,
   busy_routing, busy_sched, by decide, by decide, by decide, by decide, by decide, by decide, by decide,
   ⟨fun _ => .inr (.inl ⟨by decide, by decide, by decide⟩), fun h => absurd h (by decide)⟩,
   ⟨busy_routing.writtenOnce, busy_routing.notRead, busy_routing.taps, busy_routing.placement, busy_routing.levels⟩,
   ⟨busy_sched.fading, busy_sched.occupied, busy_sched.pages, busy_sched.progress, busy_sched.waiting, busy_sched.once,
    busy_sched.queued, busy_sched.full, busy_sched.disabled, busy_sched.exponent⟩, by decide, by decide⟩
theorem witness_FrameTakesWord : collecting.pins.reset = false ∧ collecting.port.lock = .locked ∧ RoutingInv busy ∧
    PortInv busy ∧ busy.port.sender = .quiet ∧ collecting.port.sender = .answering 7 [] .nothing ∧
    (takeControlWord 0 collecting).state.port.sender = .answering 7 [] .nothing ∧
    (takeControlWord (payloadWord (byteWord 70)) collecting).state.port.assembler = .idle ∧
    SchedInv busy ∧ 1 < (busy.ramp.lanes.get .user).count ∧ (due.ramp.lanes.get .speed).count = 1 ∧
    (busy.sched.slots[(0 : FadeSlot)] = some { channel := 0, old := 0, target := 1, k := 1022, length := 1024, next := none } ∧
      busy.channels[(0 : Chan)].out ≠ none) ∧ completesIn ending 0 = true :=
  ⟨by decide, by decide, busy_routing, busy_port, by decide, by decide, by decide +kernel, by decide +kernel, busy_sched,
   by decide, by decide, by decide, by decide⟩
theorem witness_FrameCounts : due.pins.reset = false ∧ due.port.lock = .locked ∧ HandsNothing due idleFrame.control ∧
    (Instr.frame idleFrame false [] = .frame idleFrame false [] ∧ (0 : Word32) = idleFrame.control) ∧
    SchedInv due ∧ CountersInv due ∧ due.speed.counter = 1 ∧ due.duck.count = 1 ∧
    due.sched.slots[(0 : FadeSlot)] =
      some { channel := 0, old := 0, target := 1, k := 1022, length := 1024, next := none } ∧
    CountersInv busy ∧ busy.speed.fresh = false ∧ busy.duck.count ≠ 1 ∧
    SchedInv full ∧ full.speed.fresh = false ∧ (completionRows full).length = 8 ∧ SchedInv ending ∧
    (ending.sched.settled.get .a = false ∧ completesIn ending 0 = true) ∧
    (due.ramp.lanes.speed.count = 1 ∧ due.ramp.lanes.duck.count = 1 ∧ due.duck.previous = true ∧ due.duck.level = false) :=
  ⟨by decide, by decide, idle_nothing _, ⟨rfl, rfl⟩, due_sched, due_counters, by decide, by decide, by decide,
   busy_counters, by decide, by decide, full_sched, by decide, by decide +kernel, ending_sched, by decide, by decide, by decide⟩
theorem succ_ne (x : BitVec 16) : x + 1 ≠ x := by bv_omega
theorem witness_DamagedFrameOut : ∃ check : BitVec 16, check ≠ checkValue idleFrame ∧ collecting.pins.reset = false ∧
    collecting.port.lock = .locked ∧ RoutingInv collecting ∧ SchedInv collecting ∧
    collecting.port.assembler = .collecting volumeHeader 1 [] ∧ collecting.port.sender = .answering 7 [] .nothing :=
  ⟨checkValue idleFrame + 1, succ_ne _, by decide, by decide, ⟨busy_routing.writtenOnce, busy_routing.notRead,
   busy_routing.taps, busy_routing.placement, busy_routing.levels⟩,
   ⟨busy_sched.fading, busy_sched.occupied, busy_sched.pages, busy_sched.progress, busy_sched.waiting, busy_sched.once,
    busy_sched.queued, busy_sched.full, busy_sched.disabled, busy_sched.exponent⟩, by decide, by decide⟩
theorem witness_ScalingRange : LanesInv busy ∧ RoutingInv busy ∧ (-768 : Int) ≤ -768 ∧ (0 : Int) ≤ 0 ∧ (96 : Int) ≤ 96 ∧
    ((-768 : Int) < -767 ∧ (-767 : Int) = 48 * -16 + (1 : Nat) ∧ ((39 : Nat) : Int) = 23 - -16) ∧
    ((96 : Int) = 48 * 2 + (0 : Nat) ∧ ((21 : Nat) : Int) = 23 - 2) :=
  ⟨busy_lanes, busy_routing, by decide, by decide, by decide, by decide, by decide⟩
theorem witness_FilterChains : [caseSection, caseSection].length = ([Position.zero, Position.zero] : Chain).length := by
  decide
theorem witness_BlendBetween : 1 ≤ 1 ∧ 1 ≤ 256 ∧ 256 ≤ 256 := by decide
theorem witness_ChannelInOneFrame : busy.sched.switch[(23 : Chan)] = .steady 1 ∧
    full.sched.switch[(8 : Chan)] = .queued 0 3 ∧ busy.sched.switch[(0 : Chan)] = .fading 0 0 ∧
    busy.sched.slots[(0 : FadeSlot)] =
      some { channel := 0, old := 0, target := 1, k := 1022, length := 1024, next := none } ∧
    busy.equaliser.target[(0 : Chan)] = some [] ∧ 1 ≤ 1024 ∧ 1022 < 1024 := by decide +kernel
theorem witness_steps : ∃ t : State, step busy = .next t := ⟨_, rfl⟩
theorem witness_RangesKept : LanesInv busy ∧ CountersInv busy ∧ SpeedInv busy ∧ NoticesInv busy ∧ MetersInv busy ∧
    ∃ t : State, step busy = .next t :=
  ⟨busy_lanes, busy_counters, busy_speed, busy_notices, busy_meters, witness_steps⟩
theorem witness_PlanKept : PlanInv busy ∧ ∃ t : State, step busy = .next t := ⟨busy_plan, witness_steps⟩
theorem witness_RoutingKept : RoutingInv busy ∧ ∃ t : State, step busy = .next t := ⟨busy_routing, witness_steps⟩
theorem witness_DisabledKept : SchedInv busy ∧ DisabledInv busy ∧ ∃ t : State, step busy = .next t :=
  ⟨busy_sched, busy_disabled, witness_steps⟩
theorem witness_SchedulerKept : SchedInv busy ∧ ∃ t : State, step busy = .next t := ⟨busy_sched, witness_steps⟩
theorem witness_PagesKept : SchedInv busy ∧ PagesInv busy ∧ ∃ t : State, step busy = .next t :=
  ⟨busy_sched, busy_pages, witness_steps⟩
theorem witness_EqualiserKept : SchedInv busy ∧ EqualiserInv busy ∧ ∃ t : State, step busy = .next t :=
  ⟨busy_sched, busy_equaliser, witness_steps⟩
theorem witness_PortKept : PortInv busy ∧ HeldInReset busy ∧ SchedInv busy ∧ LostInv busy ∧
    ∃ t : State, step busy = .next t := ⟨busy_port, busy_held, busy_sched, busy_lost, witness_steps⟩

end Sys2Proof.Tests
end

section
/-! The cabin gain settings and the attenuations they give: SET_BALANCE and SET_FADE (R35, R36), and the balance and fade
attenuations of a channel (R43, R44). -/

namespace Sys2Proof.Machine

/-! ### The user targets of all channels -/

/-- Recomputing for all channels forms every user target anew (R52). -/
theorem recomputeUser_allChannels (s : State) :
    recomputeUser allChannels s =
      { s with gain.targets.user := Vector.ofFn fun c : Chan =>
          userTarget s.gain.cabin (s.gain.zones.get s.channels[c].zone) s.channels[c] } := by
  simp [recomputeUser, userTargets, allChannels]

/-- While the plan is up to date, forming every user target anew gives the targets held. -/
theorem PlanInv.ofFn_userTarget {s : State} (h : PlanInv s) :
    (Vector.ofFn fun c : Chan => userTarget s.gain.cabin (s.gain.zones.get s.channels[c].zone) s.channels[c]) =
      s.gain.targets.user := by
  ext i hi
  simpa using (h.user ⟨i, hi⟩).symm

/-! ### SET_BALANCE and SET_FADE -/

/-- The answer to a cabin setting: CLAMPED exactly where it lies outside -32 to 32 (R35, R36). -/
theorem clampedIf_setting (v : Int) :
    clampedIf (clamp (-32) 32 v != v) = if -32 ≤ v ∧ v ≤ 32 then .ok else .clamped :=
  clampedIf_eq (clamp_changes (by decide))

theorem takeSetBalance_eq (v : BitVec 8) (s : State) :
    takeSetBalance v s = done (if -32 ≤ v.toInt ∧ v.toInt ≤ 32 then .ok else .clamped)
      (recomputeUser allChannels { s with gain.cabin.balance := max (-32) (min 32 v.toInt) }) := by
  rw [← clampedIf_setting]; rfl

theorem takeSetFade_eq (v : BitVec 8) (s : State) :
    takeSetFade v s = done (if -32 ≤ v.toInt ∧ v.toInt ≤ 32 then .ok else .clamped)
      (recomputeUser allChannels { s with gain.cabin.fade := max (-32) (min 32 v.toInt) }) := by
  rw [← clampedIf_setting]; rfl

/-- Taking the balance setting already held answers OK and changes nothing, the plan being up to date (R35). -/
theorem takeSetBalance_held {v : BitVec 8} {s : State} (h : PlanInv s) (hlo : -32 ≤ v.toInt) (hhi : v.toInt ≤ 32)
    (hv : s.gain.cabin.balance = v.toInt) : takeSetBalance v s = done .ok s := by
  have hstored : max (-32) (min 32 v.toInt) = s.gain.cabin.balance := by omega
  rw [takeSetBalance_eq, if_pos ⟨hlo, hhi⟩, hstored, recomputeUser_allChannels]
  exact congrArg (fun t => done .ok { s with gain.targets.user := t }) h.ofFn_userTarget

/-! ### The curve entry of a setting -/

theorem curveEntry_of_natAbs (curve : Vector Nat 32) {b : Int} {k : Fin 32} (h : b.natAbs = k.val + 1) :
    curveEntry curve b = (curve[k] : Int) := by
  simp [curveEntry, h]

/-- A setting other than 0 within -32 to 32 names an entry. -/
theorem exists_entry {b : Int} (h0 : b ≠ 0) (hlo : -32 ≤ b) (hhi : b ≤ 32) : ∃ k : Fin 32, b.natAbs = k.val + 1 :=
  ⟨⟨b.natAbs - 1, by omega⟩, by simp only; omega⟩

/-- The entry of a setting other than 0 lies in the range of its curve (R34). -/
theorem curveEntry_range {curve : Vector Nat 32} (hc : ∀ k : Fin 32, curve[k] ≤ 768) {b : Int} (h0 : b ≠ 0)
    (hlo : -32 ≤ b) (hhi : b ≤ 32) : 0 ≤ curveEntry curve b ∧ curveEntry curve b ≤ 768 := by
  obtain ⟨k, hk⟩ := exists_entry h0 hlo hhi
  have := hc k
  rw [curveEntry_of_natAbs curve hk]
  omega

/-! ### The share of an entry that a distance takes -/

/-- The share `d` of `n` of an entry `a`, rounded, lies from 0 to the entry's upper bound. -/
theorem share_range {a d n m h : Int} (ha : 0 ≤ a) (ham : a ≤ m) (hd : 0 ≤ d) (hdn : d ≤ n) (h0 : 0 ≤ h) (hn : h < n) :
    0 ≤ (a * d + h) / n ∧ (a * d + h) / n ≤ m := by
  have hprod : 0 ≤ a * d := mul_nonneg ha hd
  have hle : a * d ≤ m * n := mul_le_mul ham hdn hd (ha.trans ham)
  constructor
  · exact Int.ediv_nonneg (by omega) (by omega)
  · refine Int.lt_add_one_iff.mp (Int.ediv_lt_of_lt_mul (by omega) ?_)
    rw [add_mul, one_mul]
    omega

/-- At the full distance the share is the entry itself. -/
theorem share_full {n h : Int} (a : Int) (h0 : 0 ≤ h) (hn : h < n) : (a * n + h) / n = a := by
  rw [add_comm, Int.add_mul_ediv_right _ _ (by omega), Int.ediv_eq_zero_of_lt h0 hn, zero_add]

/-! ### The balance attenuation (R43) -/

section

variable {cab : Cabin} {x : Int}

theorem balanceDistance_zero (x : Int) : balanceDistance 0 x = 0 := by simp [balanceDistance]

theorem balanceDistance_of_pos {b : Int} (h : 0 < b) (x : Int) : balanceDistance b x = max 0 (-x) := by
  simp [balanceDistance, Int.sign_eq_one_of_pos h]

theorem balanceDistance_of_neg {b : Int} (h : b < 0) (x : Int) : balanceDistance b x = max 0 x := by
  simp [balanceDistance, Int.sign_eq_neg_one_of_neg h]

theorem balanceDistance_range (b : Int) (hlo : -8 ≤ x) (hhi : x ≤ 8) :
    0 ≤ balanceDistance b x ∧ balanceDistance b x ≤ 8 := by
  rcases lt_trichotomy b 0 with hb | rfl | hb
  · rw [balanceDistance_of_neg hb]; omega
  · rw [balanceDistance_zero]; omega
  · rw [balanceDistance_of_pos hb]; omega

theorem balanceAtt_eq_zero (h : cab.balance = 0 ∨ balanceDistance cab.balance x = 0) : balanceAtt cab x = 0 := by
  rw [balanceAtt, if_pos h]

theorem balanceAtt_of_ne (hb : cab.balance ≠ 0) (hd : balanceDistance cab.balance x ≠ 0) :
    balanceAtt cab x = (curveEntry cab.balanceCurve cab.balance * balanceDistance cab.balance x + 4) / 8 := by
  rw [balanceAtt, if_neg (not_or.mpr ⟨hb, hd⟩)]

theorem balanceAtt_of_entry {k : Fin 32} (hk : cab.balance.natAbs = k.val + 1)
    (hd : balanceDistance cab.balance x ≠ 0) :
    balanceAtt cab x = ((cab.balanceCurve[k] : Int) * balanceDistance cab.balance x + 4) / 8 := by
  rw [balanceAtt_of_ne (by omega) hd, curveEntry_of_natAbs _ hk]

theorem balanceAtt_full {k : Fin 32} (hk : cab.balance.natAbs = k.val + 1) (hd : balanceDistance cab.balance x = 8) :
    balanceAtt cab x = (cab.balanceCurve[k] : Int) := by
  rw [balanceAtt_of_entry hk (by omega), hd, share_full _ (by decide) (by decide)]

theorem balanceAtt_range (hxlo : -8 ≤ x) (hxhi : x ≤ 8) (hlo : -32 ≤ cab.balance) (hhi : cab.balance ≤ 32)
    (hc : ∀ k : Fin 32, cab.balanceCurve[k] ≤ 768) : 0 ≤ balanceAtt cab x ∧ balanceAtt cab x ≤ 768 := by
  by_cases h : cab.balance = 0 ∨ balanceDistance cab.balance x = 0
  · rw [balanceAtt_eq_zero h]; decide
  · obtain ⟨hb, hd⟩ := not_or.mp h
    obtain ⟨hentry, hentry'⟩ := curveEntry_range hc hb hlo hhi
    obtain ⟨hdist, hdist'⟩ := balanceDistance_range cab.balance hxlo hxhi
    rw [balanceAtt_of_ne hb hd]
    exact share_range hentry hentry' hdist hdist' (by decide) (by decide)

end

/-! ### The fade attenuation (R44) -/

section

variable {cab : Cabin} {y : Nat}

theorem fadeDistance_zero (y : Nat) : fadeDistance 0 y = 0 := rfl

theorem fadeDistance_of_pos {f : Int} (h : 0 < f) (y : Nat) : fadeDistance f y = 15 - (y : Int) := if_pos h

theorem fadeDistance_of_neg {f : Int} (h : f < 0) (y : Nat) : fadeDistance f y = (y : Int) := by
  rw [fadeDistance, if_neg (by omega), if_pos h]

theorem fadeDistance_range (f : Int) (hy : y ≤ 15) : 0 ≤ fadeDistance f y ∧ fadeDistance f y ≤ 15 := by
  rcases lt_trichotomy f 0 with hf | rfl | hf
  · rw [fadeDistance_of_neg hf]; omega
  · rw [fadeDistance_zero]; omega
  · rw [fadeDistance_of_pos hf]; omega

theorem fadeAtt_of_centred (h : cab.fade = 0) : fadeAtt cab y = 0 := if_pos h

theorem fadeAtt_of_ne (h : cab.fade ≠ 0) :
    fadeAtt cab y = (curveEntry cab.fadeCurve cab.fade * fadeDistance cab.fade y + 7) / 15 := if_neg h

theorem fadeAtt_of_entry {k : Fin 32} (hk : cab.fade.natAbs = k.val + 1) :
    fadeAtt cab y = ((cab.fadeCurve[k] : Int) * fadeDistance cab.fade y + 7) / 15 := by
  rw [fadeAtt_of_ne (by omega), curveEntry_of_natAbs _ hk]

/-- No test for the distance 0 is needed: the formula itself gives floor(7 / 15) = 0. -/
theorem fadeAtt_of_distance_zero (hd : fadeDistance cab.fade y = 0) : fadeAtt cab y = 0 := by
  by_cases h : cab.fade = 0
  · exact fadeAtt_of_centred h
  · rw [fadeAtt_of_ne h, hd, mul_zero]; decide

theorem fadeAtt_full {k : Fin 32} (hk : cab.fade.natAbs = k.val + 1) (hd : fadeDistance cab.fade y = 15) :
    fadeAtt cab y = (cab.fadeCurve[k] : Int) := by
  rw [fadeAtt_of_entry hk, hd, share_full _ (by decide) (by decide)]

theorem fadeAtt_range (hy : y ≤ 15) (hlo : -32 ≤ cab.fade) (hhi : cab.fade ≤ 32)
    (hc : ∀ k : Fin 32, cab.fadeCurve[k] ≤ 768) : 0 ≤ fadeAtt cab y ∧ fadeAtt cab y ≤ 768 := by
  by_cases h : cab.fade = 0
  · rw [fadeAtt_of_centred h]; decide
  · obtain ⟨hentry, hentry'⟩ := curveEntry_range hc h hlo hhi
    obtain ⟨hdist, hdist'⟩ := fadeDistance_range cab.fade hy
    rw [fadeAtt_of_ne h]
    exact share_range hentry hentry' hdist hdist' (by decide) (by decide)

end

/-! ### The statements -/

/-- Settles O18: the owner's act is the stated one by `takeSetBalance_eq`, and leaves the state where the setting is
already held by `takeSetBalance_held`. -/
theorem setBalanceStores : Obligations.SetBalanceStores := by
  intro s v
  constructor
  · refine completes_of_take (.setBalance v) (fun _ => rfl) rfl fun _ => ?_
    exact (takeSetBalance_eq v s).trans (congrArg (done _) (recomputeUser_allChannels _))
  · intro hplan hlo hhi hv
    exact completes_of_take (.setBalance v) (fun _ => rfl) rfl fun _ => takeSetBalance_held hplan hlo hhi hv

/-- Settles O19, as O18 with the fade setting. -/
theorem setFadeStores : Obligations.SetFadeStores := by
  intro s v
  refine completes_of_take (.setFade v) (fun _ => rfl) rfl fun _ => ?_
  exact (takeSetFade_eq v s).trans (congrArg (done _) (recomputeUser_allChannels _))

/-- Settles O24: the distances by the sign of the setting, and the attenuation as the rounded share of its entry. -/
theorem attenuations : Obligations.Attenuations := by
  constructor
  · intro cab x hxlo hxhi hlo hhi hc d
    obtain ⟨hd0, hd8⟩ := balanceDistance_range cab.balance hxlo hxhi
    obtain ⟨hatt0, hatt768⟩ := balanceAtt_range hxlo hxhi hlo hhi hc
    refine ⟨fun h => balanceDistance_of_pos h x, fun h => balanceDistance_of_neg h x, fun h => ?centred, hd0, hd8,
      balanceAtt_eq_zero, fun _ hk hd => balanceAtt_of_entry hk hd, hatt0, hatt768, fun h hx => ?farRight,
      fun h hx => ?farLeft, fun _ hk hd => balanceAtt_full hk hd⟩
    case centred => exact h ▸ balanceDistance_zero x
    case farRight => exact balanceAtt_eq_zero (.inr (by rw [balanceDistance_of_pos h]; omega))
    case farLeft => exact balanceAtt_eq_zero (.inr (by rw [balanceDistance_of_neg h]; omega))
  · intro cab y hy hlo hhi hc d
    obtain ⟨hatt0, hatt768⟩ := fadeAtt_range hy hlo hhi hc
    refine ⟨fun h => fadeDistance_of_pos h y, fun h => fadeDistance_of_neg h y, fun h => ?centred,
      fadeAtt_of_centred, fun _ hk => fadeAtt_of_entry hk, hatt0, hatt768, fadeAtt_of_distance_zero,
      fun h hr => ?rear, fun h hf => ?front, fun _ hk hd => fadeAtt_full hk hd⟩
    case centred => exact h ▸ fadeDistance_zero y
    case rear => exact fadeAtt_of_distance_zero (by rw [fadeDistance_of_pos h]; omega)
    case front => exact fadeAtt_of_distance_zero (by rw [fadeDistance_of_neg h]; omega)

end Sys2Proof.Machine
end

section
/-! The lane settings and counts after a reset (R69): every reset leaves `State.blocksReset`, and the ramp engine of an
UNLOCKED part stands while frames pass. -/

namespace Sys2Proof.Machine

variable {s : State}

/-! ### What a reset leaves -/

@[simp] theorem blocksReset_lock (pins : Pins) (n : Fin 31) (twin : Bool) (o : Option OutFrame) (q : List Instr) :
    (State.blocksReset pins n twin o q).port.lock = .unlocked := rfl

@[simp] theorem blocksReset_ramp (pins : Pins) (n : Fin 31) (twin : Bool) (o : Option OutFrame) (q : List Instr) :
    (State.blocksReset pins n twin o q).ramp = RampEngine.reset := rfl

@[simp] theorem deviceReset_lock (s : State) : (deviceReset s).port.lock = .unlocked := blocksReset_lock ..

@[simp] theorem deviceReset_ramp (s : State) : (deviceReset s).ramp = RampEngine.reset := blocksReset_ramp ..

/-! ### The rows that reset the part -/

/-- A broadcast DEVICE_RESET has no answer to wait for: the reset follows in the row at once (R159). -/
theorem exec_deviceReset_broadcast {r : Route} (h : ReadyBroadcast s r) :
    exec (.deviceReset r) s = .next (deviceReset s) :=
  congrArg Host.Outcome.next (deliver_broadcast (c := .deviceReset) h rfl)

/-- At the end of the answer to a DEVICE_RESET the sender is QUIET and the part is reset (R159). -/
theorem exec_deviceResetTakesEffect_of_answering {w : Word32} {rest : List Word32}
    (h : s.port.sender = .answering w rest .deviceReset) :
    exec .deviceResetTakesEffect s = .next (deviceReset (setSender .quiet s)) := by
  have hleave : (leaveAnswering s).finish = deviceReset (setSender .quiet s) := by
    simp [leaveAnswering, h, applyDeferred, Turn.finish]
  change execDeviceResetTakesEffect s = _
  simp only [execDeviceResetTakesEffect, h, hleave]

/-! ### Frames while UNLOCKED -/

/-- A good SYNC that finds the part UNLOCKED only passes its frame, the pin held or released: the ramp engine stands, its
counts with it (R60, R148, R160). -/
theorem goodSync_ramp_of_unlocked (h : s.port.lock = .unlocked) (g : RingFrame) (path : State → State) :
    (goodSync g path s).ramp = s.ramp := by
  cases hpin : s.pins.reset with
  | true => simp [goodSync, hpin]
  | false => simp [goodSync, hpin, h]

/-! ### The statement -/

/-- Settles O4: every reset leaves the lock state of `RingPort.reset` and the lanes of `RampEngine.reset`. -/
theorem laneSettingsAfterReset : Obligations.LaneSettingsAfterReset := by
  unfold Obligations.LaneSettingsAfterReset
  intro afterReset
  have holds_of_reset {t : State} (hlock : t.port.lock = .unlocked) (hramp : t.ramp = RampEngine.reset) :
      afterReset t := by
    refine ⟨hlock, ?_⟩
    rw [hramp]
    exact ⟨rfl, rfl, rfl, rfl⟩
  refine ⟨?powerOn, fun straps twin s => ?pinReleased, fun r s hready => ?broadcast,
    fun s w rest hsender => ?answered, fun s f d o hlock => ?frame⟩
  case powerOn => exact holds_of_reset (blocksReset_lock ..) (blocksReset_ramp ..)
  case pinReleased => exact ⟨_, rfl, holds_of_reset (blocksReset_lock ..) (blocksReset_ramp ..)⟩
  case broadcast =>
    exact ⟨_, exec_deviceReset_broadcast hready, holds_of_reset (deviceReset_lock _) (deviceReset_ramp _)⟩
  case answered =>
    exact ⟨_, exec_deviceResetTakesEffect_of_answering hsender,
      holds_of_reset (deviceReset_lock _) (deviceReset_ramp _)⟩
  case frame => exact ⟨_, rfl, goodSync_ramp_of_unlocked hlock _ _⟩

end Sys2Proof.Machine
end

section
/-! What the owner of a command can make of the state: one case for each kind of act, so that an invariant is checked
against the acts and not against the commands. -/

namespace Sys2Proof.Machine

/-- The acts by which the owners of the ring commands change the state, with what the checks and clamps before them say
of the values they store. -/
inductive Owned (s : State) : State → Prop where
  /-- nothing is stored: a refusal, or a command that only answers -/
  | nothing : Owned s s
  /-- the cabin record, with the user targets (R35 to R37) -/
  | cabin (cab : Cabin) : Owned s (recomputeUser allChannels { s with gain.cabin := cab })
  /-- one channel's trim (R42) -/
  | trim (c : Chan) (v : Int) (lo : -96 ≤ v) (hi : v ≤ 96) :
      Owned s (recomputeUser (only c) (setRecord c { s.channels[c] with trim := v } s))
  /-- one channel's mute flag (R73) -/
  | mute (c : Chan) (b : Bool) : Owned s (recomputeMute (only c) { s with gain.mutes := s.gain.mutes.set c b })
  /-- a zone's volume step or curve (R39 to R41) -/
  | volume (z : Zone) (step : Fin 64) (curve : Vector Int 64) :
      Owned s (recomputeSpeed (inZone s z) (recomputeUser (inZone s z)
        (setZone z { s.gain.zones.get z with step := step, curve := curve } s)))
  /-- a zone's mute flag (R74) -/
  | zoneMute (z : Zone) (b : Bool) :
      Owned s (recomputeMute (inZone s z) (setZone z { s.gain.zones.get z with mute := b } s))
  /-- a zone's duck command (R77) -/
  | duck (z : Zone) (b : Bool) : Owned s (recomputeDuck z (setZone z { s.gain.zones.get z with commandDuck := b } s))
  /-- a zone's options (R78, R109) -/
  | options (z : Zone) (o : ZoneOptionsWord) :
      Owned s (reviewPage z (recomputeDuck z (recomputeSpeed (inZone s z)
        (setZone z (storeOptions o (s.gain.zones.get z)) s))))
  /-- a lane's pace (R65) -/
  | pace (l : Lane) (p a r : Nat) (hp : p ≤ 255) (ha : 1 ≤ a ∧ a ≤ 96) (hr : 1 ≤ r ∧ r ≤ 96) :
      Owned s (setLane l { s.ramp.lanes.get l with
        period := p, first := a, second := if hasRelease l then r else (s.ramp.lanes.get l).second } s)
  /-- a valid speed reading (R87) -/
  | reading (m : Nat) (hm : m ≤ 400) : Owned s (speedEvent (judge m s.speed) s)
  /-- a speed policy (R95) -/
  | policy (j h t f : Nat) (hj : j ≤ 255) (hh : h ≤ 31) (ht : t ≤ 255) (hf : f ≤ 400) :
      Owned s (speedEvent (applyPolicy j h t f s.speed) s)
  /-- a zone's SDV curve (R101) -/
  | sdv (z : Zone) (curve : List Breakpoint) :
      Owned s (reviewPage z (recomputeSpeed (inZone s z)
        (setZone z (evalSdv s.speed.effective { s.gain.zones.get z with sdv := curve }) s)))
  /-- a source record, with no output slot of an enabled channel (R18, R19) -/
  | source (i : SourceId) (slot : Option AudioSlot)
      (free : ∀ k, slot = some k → ∀ c : Chan, s.channels[c].out ≠ some k) : Owned s (storeSource i slot s)
  /-- a channel record that has passed its checks (R22 to R27) -/
  | record (c : Chan) (r : ChannelRecord) (others : ∀ k, r.out = some k → ∀ d : Chan, d ≠ c → s.channels[d].out ≠ some k)
      (unread : ∀ k, r.out = some k → ∀ i : SourceId, s.sources[i] ≠ some k)
      (taps : r.taps.length ≤ 4 ∧ ∀ t ∈ r.taps, -768 ≤ t.gain ∧ t.gain ≤ 0)
      (placement : -8 ≤ r.x ∧ r.x ≤ 8 ∧ r.y ≤ 15) (levels : -96 ≤ r.trim ∧ r.trim ≤ 96 ∧ r.weight ≤ 16) :
      Owned s (loadRecord c r s)
  /-- a section that runs in no channel (R114) -/
  | coeffs (i : SectionId) (k : Coeffs) (unused : (s.equaliser.sections[i]).live = 0) :
      Owned s { s with equaliser.sections :=
        s.equaliser.sections.set i { s.equaliser.sections[i] with valid := true, coeffs := k } }
  /-- a program of valid sections that its channel does not run (R118, R119) -/
  | program (p : Page) (c : Chan) (prog : Program) (short : prog.length ≤ 6)
      (valid : ∀ i ∈ prog, (s.equaliser.sections[i]).valid = true) (unused : pageInUse s p c = false) :
      Owned s (setProgram p c prog s)
  /-- a zone's user page (R107) -/
  | userPage (z : Zone) (p : Page) : Owned s (reviewPage z (setZone z { s.gain.zones.get z with userPage := p } s))
  /-- the enabled notice kinds (R162) -/
  | kinds (k : NoticeSet) :
      Owned s { s with notices.enabled := k, notices.pending := keepKinds s.notices.pending k }
  /-- the pending set read and emptied (R164) -/
  | polled : Owned s { s with notices.pending := NoticeSet.empty }
  /-- the roll-call assignment (R165) -/
  | roll (r : RollAssignment) : Owned s { s with notices.roll := r }
  /-- the meters read and restarted (R168) -/
  | metersRead : Owned s { s with output := OutputStage.reset }

variable {s : State}

theorem toSections_length {es : List (BitVec 8)} {prog : Program} (h : toSections es = some prog) :
    prog.length = es.length := by
  induction es generalizing prog with
  | nil => simp [toSections] at h; simp [← h]
  | cons e es ih =>
    simp only [toSections] at h
    split at h
    · rename_i p hp
      split at h
      · simp only [Option.some.injEq] at h
        simp [← h, ih hp]
      · cases h
    · cases h

/-- A slot that is not written: no channel but those skipped names it. -/
theorem slotWritten_eq_false {skip : Chan → Bool} {k : AudioSlot} (h : slotWritten s skip k = false) (c : Chan)
    (hc : skip c = false) : s.channels[c].out ≠ some k := by
  intro hk
  have := (List.any_eq_false.mp h) c (List.mem_finRange c)
  simp [hc] at this
  exact this hk

theorem slotRead_eq_false {k : AudioSlot} (h : slotRead s k = false) (i : SourceId) : s.sources[i] ≠ some k := by
  intro hk
  have := (List.any_eq_false.mp h) s.sources[i] (by simp)
  simp at this
  exact this hk

theorem takeLoadChannel_owned (w : ChannelWord) (taps : List TapWord) (s : State) :
    Owned s (takeLoadChannel w taps s).state := by
  unfold takeLoadChannel
  split
  · exact .nothing
  · rename_i hlen
    split
    · rename_i c ts hc hts
      dsimp only
      split
      · exact .nothing
      · rename_i hfree
        simp only [Bool.or_eq_true, not_or, Bool.not_eq_true] at hfree
        obtain ⟨hw, hr⟩ := hfree
        obtain ⟨hl, hg⟩ := toTaps_range hts
        refine .record c (toRecord w ts) ?_ ?_ ⟨?_, hg⟩ ⟨?_, ?_, ?_⟩ ⟨?_, ?_, ?_⟩
        · intro k hk d hd
          rw [hk] at hw
          exact slotWritten_eq_false hw d (by simp [only, hd])
        · intro k hk
          rw [hk] at hr
          exact slotRead_eq_false hr
        · simp only [toRecord]; omega
        · exact (clamp_range (by decide)).1
        · exact (clamp_range (by decide)).2
        · simp only [toRecord]; omega
        · exact (clamp_range (by decide)).1
        · exact (clamp_range (by decide)).2
        · simp only [toRecord]; omega
    · exact .nothing

theorem takeLoadProgram_owned (page : BitVec 4) (channel : BitVec 8) (entries : List (BitVec 8)) (s : State) :
    Owned s (takeLoadProgram page channel entries s).state := by
  unfold takeLoadProgram
  split
  · exact .nothing
  · split
    · rename_i hlen _ _ _ p c prog _ _ hprog
      split
      · exact .nothing
      · rename_i hvalid
        split
        · exact .nothing
        · rename_i hunused
          have hl := toSections_length hprog
          refine .program p c prog (by omega) ?_ (by simpa using hunused)
          simpa using hvalid
    · exact .nothing

/-- Every command is one of the acts. -/
theorem takeCommand_owned (z : Zone) (s : State) (c : Command) : Owned s (takeCommand z s c).state := by
  cases c with
  | assignAddress | deviceReset | rollCall => exact .nothing
  | readTable a b =>
    simp only [takeCommand, takeReadTable]
    split <;> exact .nothing
  | setBalance v => exact .cabin { s.gain.cabin with balance := clamp (-32) 32 v.toInt }
  | setFade v => exact .cabin { s.gain.cabin with fade := clamp (-32) 32 v.toInt }
  | loadBalanceCurve e => exact .cabin { s.gain.cabin with balanceCurve := attenuationCurve e }
  | loadFadeCurve e => exact .cabin { s.gain.cabin with fadeCurve := attenuationCurve e }
  | setChannelTrim i v =>
    simp only [takeCommand, takeSetChannelTrim]
    split
    · exact .nothing
    · exact .trim _ _ (clamp_range (by decide)).1 (clamp_range (by decide)).2
  | setChannelMute i v =>
    simp only [takeCommand, takeSetChannelMute]
    split
    · exact .nothing
    · exact .mute _ _
  | setVolume v =>
    simp only [takeCommand, takeSetVolume]
    split <;> exact .volume z _ (s.gain.zones.get z).curve
  | stepVolume v => exact .volume z _ (s.gain.zones.get z).curve
  | loadVolumeCurve e => exact .volume z (s.gain.zones.get z).step _
  | setZoneMute v => exact .zoneMute z _
  | setDuck v => exact .duck z _
  | setZoneOptions o => exact .options z o
  | setRamp l p a r =>
    simp only [takeCommand, takeSetRamp]
    split
    · exact .nothing
    · exact .pace _ _ _ _ (by omega) (by unfold clampNat; omega) (by unfold clampNat; omega)
  | vehicleState v b =>
    simp only [takeCommand, takeVehicleState]
    split
    · exact .reading _ (by omega)
    · exact .nothing
  | setSpeedPolicy p => exact .policy _ _ _ _ (by omega) (by omega) (by omega) (by omega)
  | loadSdvCurve points =>
    simp only [takeCommand]
    rcases takeLoadSdvCurve_cases s z points with h | ⟨curve, h⟩ <;> rw [h]
    · exact .nothing
    · exact .sdv z curve
  | loadSource i p k =>
    simp only [takeCommand, takeLoadSource]
    split
    · split
      · exact .nothing
      · rename_i hfree
        refine .source _ _ fun x hx c hc => hfree ?_
        rw [hx, Option.any_some, slotWritten, List.any_eq_true]
        exact ⟨c, List.mem_finRange c, by simpa using hc⟩
    · exact .nothing
  | loadChannel w taps => exact takeLoadChannel_owned w taps s
  | loadSection i k =>
    simp only [takeCommand, takeLoadSection]
    split
    · split
      · exact .nothing
      · split
        · exact .nothing
        · rename_i hlive
          exact .coeffs _ _ (not_not.mp hlive)
    · exact .nothing
  | loadProgram p c es => exact takeLoadProgram_owned p c es s
  | selectPage p =>
    simp only [takeCommand, takeSelectPage]
    split
    · exact .nothing
    · exact .userPage z _
  | setNoticeEnable k => exact .kinds k
  | statusPoll => exact .polled
  | rollCallAssign m b =>
    simp only [takeCommand, takeRollCallAssign]
    split
    · exact .roll _
    · split
      · exact .roll _
      · exact .nothing
    · split
      · exact .roll _
      · exact .nothing
    · exact .nothing
  | readMeters => exact .metersRead

end Sys2Proof.Machine
end

section
/-! The ranges that every step keeps: lanes, counters, speeds, notices and meters (R58, R59, R62, R79, R85, R91, R162,
R167). -/

namespace Sys2Proof.Machine

variable {s t : State}

/-! ### Targets and currents (R58, R63) -/

theorem userTarget_range (cab : Cabin) (z : ZoneRecord) (r : ChannelRecord) :
    -768 ≤ userTarget cab z r ∧ userTarget cab z r ≤ 96 := by
  unfold userTarget
  split
  · decide
  · exact clamp_range (by decide)

theorem speedTarget_range (z : ZoneRecord) (r : ChannelRecord) : -96 ≤ speedTarget z r ∧ speedTarget z r ≤ 96 :=
  clamp_range (by decide)

theorem muteTarget_range (b : Bool) (z : ZoneRecord) : -768 ≤ muteTarget b z ∧ muteTarget b z ≤ 0 := by
  unfold muteTarget; split <;> decide

theorem duckTarget_range {z : ZoneRecord} (h : z.depth ≤ 768) (b : Bool) :
    -768 ≤ duckTarget z b ∧ duckTarget z b ≤ 0 := by
  unfold duckTarget; split <;> omega

/-- What the Gain Planner gives the lanes to move toward lies in range. -/
structure PlanRanges (g : GainPlanner) : Prop where
  targets : g.targets.InRange
  depth : ∀ z : Zone, (g.zones.get z).depth ≤ 768

theorem PlanRanges.recomputeUser (h : PlanRanges s.gain) (p : Chan → Bool) :
    PlanRanges (Machine.recomputeUser p s).gain where
  targets := ⟨fun c => by rw [userTarget_at]; split; exacts [userTarget_range _ _ _, h.targets.user c],
    by rw [recomputeUser_speedTargets]; exact h.targets.speed, by rw [recomputeUser_muteTargets]; exact h.targets.mute,
    by rw [recomputeUser_duckTargets]; exact h.targets.duck⟩
  depth := by rw [recomputeUser_zones]; exact h.depth

theorem PlanRanges.recomputeSpeed (h : PlanRanges s.gain) (p : Chan → Bool) :
    PlanRanges (Machine.recomputeSpeed p s).gain where
  targets := ⟨by rw [recomputeSpeed_userTargets]; exact h.targets.user,
    fun c => by rw [speedTarget_at]; split; exacts [speedTarget_range _ _, h.targets.speed c],
    by rw [recomputeSpeed_muteTargets]; exact h.targets.mute, by rw [recomputeSpeed_duckTargets]; exact h.targets.duck⟩
  depth := by rw [recomputeSpeed_zones]; exact h.depth

theorem PlanRanges.recomputeMute (h : PlanRanges s.gain) (p : Chan → Bool) :
    PlanRanges (Machine.recomputeMute p s).gain where
  targets := ⟨by rw [recomputeMute_userTargets]; exact h.targets.user,
    by rw [recomputeMute_speedTargets]; exact h.targets.speed,
    fun c => by rw [muteTarget_at]; split; exacts [muteTarget_range _ _, h.targets.mute c],
    by rw [recomputeMute_duckTargets]; exact h.targets.duck⟩
  depth := by rw [recomputeMute_zones]; exact h.depth

theorem PlanRanges.recomputeDuck (h : PlanRanges s.gain) (z : Zone) : PlanRanges (Machine.recomputeDuck z s).gain where
  targets := ⟨by rw [recomputeDuck_userTargets]; exact h.targets.user,
    by rw [recomputeDuck_speedTargets]; exact h.targets.speed, by rw [recomputeDuck_muteTargets]; exact h.targets.mute,
    fun y => by rw [duckTarget_at]; split; exacts [duckTarget_range (h.depth z) _, h.targets.duck y]⟩
  depth := by rw [recomputeDuck_zones]; exact h.depth

theorem PlanRanges.setZone (h : PlanRanges s.gain) {z : Zone} {r : ZoneRecord} (hr : r.depth ≤ 768) :
    PlanRanges (Machine.setZone z r s).gain where
  targets := h.targets
  depth y := by
    rw [setZone_zones, PerZone.get_set]
    split
    exacts [hr, h.depth y]

theorem PlanRanges.reviewPages (h : PlanRanges s.gain) (a b : Bool) : PlanRanges (Machine.reviewPages a b s).gain where
  targets := by rw [reviewPages_gain_targets]; exact h.targets
  depth z := by
    rw [reviewPages_zones]
    have := h.depth z
    cases z <;> simp only [reviewedZones, PerZone.get] at this ⊢ <;> split <;> exact this

theorem PlanRanges.reviewPage (h : PlanRanges s.gain) (z : Zone) : PlanRanges (Machine.reviewPage z s).gain :=
  PlanRanges.reviewPages h _ _

theorem PlanRanges.takeEffective (h : PlanRanges s.gain) : PlanRanges (Machine.takeEffective s).gain := by
  dsimp only [Machine.takeEffective]
  refine PlanRanges.reviewPages ?_ _ _
  refine PlanRanges.recomputeSpeed ?_ _
  refine ⟨h.targets, fun z => ?_⟩
  cases z
  · exact h.depth .a
  · exact h.depth .b

theorem PlanRanges.speedEvent (h : PlanRanges s.gain) (t : SpeedTracker) : PlanRanges (Machine.speedEvent t s).gain := by
  unfold Machine.speedEvent handEffective
  split
  · exact PlanRanges.takeEffective (s := setSpeed t s) h
  · exact h

theorem PlanRanges.storeRecord (h : PlanRanges s.gain) (c : Chan) (r : ChannelRecord) :
    PlanRanges (Machine.storeRecord c r s).gain := by
  unfold Machine.storeRecord
  refine PlanRanges.recomputeMute ?_ _
  refine PlanRanges.recomputeSpeed ?_ _
  exact PlanRanges.recomputeUser (s := setRecord c r s) h _

theorem loadRecord_gain (c : Chan) (r : ChannelRecord) (s : State) :
    (loadRecord c r s).gain = (storeRecord c r s).gain := by
  rcases loadRecord_cases s c r with h | ⟨_, _, t, h, e⟩
  · exact h.gain
  · rw [e]; exact h.gain

theorem PlanRanges.owned (h : PlanRanges s.gain) (ho : Owned s t) : PlanRanges t.gain := by
  have hset : ∀ (z : Zone) (r : ZoneRecord), r.depth = (s.gain.zones.get z).depth → PlanRanges (Machine.setZone z r s).gain :=
    fun z r hr => h.setZone (hr ▸ h.depth z)
  cases ho with
  | cabin cab => exact PlanRanges.recomputeUser (s := { s with gain.cabin := cab }) ⟨h.targets, h.depth⟩ _
  | trim c v => exact PlanRanges.recomputeUser (s := setRecord c _ s) h _
  | mute c b => exact PlanRanges.recomputeMute (s := { s with gain.mutes := s.gain.mutes.set c b }) ⟨h.targets, h.depth⟩ _
  | volume z =>
    refine PlanRanges.recomputeSpeed ?_ _
    refine PlanRanges.recomputeUser ?_ _
    exact hset z _ rfl
  | zoneMute z =>
    refine PlanRanges.recomputeMute ?_ _
    exact hset z _ rfl
  | duck z =>
    refine PlanRanges.recomputeDuck ?_ _
    exact hset z _ rfl
  | options z o =>
    refine PlanRanges.reviewPage ?_ _
    refine PlanRanges.recomputeDuck ?_ _
    refine PlanRanges.recomputeSpeed ?_ _
    exact h.setZone (Nat.min_le_left _ _)
  | reading => exact h.speedEvent _
  | policy => exact h.speedEvent _
  | sdv z curve =>
    refine PlanRanges.reviewPage ?_ _
    refine PlanRanges.recomputeSpeed ?_ _
    exact hset z _ rfl
  | record c r => rw [loadRecord_gain]; exact h.storeRecord c r
  | userPage z p =>
    refine PlanRanges.reviewPage ?_ _
    exact hset z _ rfl
  | nothing | pace | source | coeffs | program | kinds | polled | roll | metersRead => exact h

/-- A current within a range moves within it toward a target within it (R63). -/
theorem moveToward_range {up down cur tgt lo hi : Int} (hu : 0 ≤ up) (hd : 0 ≤ down) (hc : lo ≤ cur ∧ cur ≤ hi)
    (ht : lo ≤ tgt ∧ tgt ≤ hi) : lo ≤ moveToward up down cur tgt ∧ moveToward up down cur tgt ≤ hi := by
  unfold moveToward
  split
  · omega
  · split <;> omega

theorem upStep_nonneg (l : Lane) (x : LaneSettings) : 0 ≤ upStep l x := by
  cases l <;> exact Int.natCast_nonneg _

theorem downStep_nonneg (x : LaneSettings) : 0 ≤ downStep x := Int.natCast_nonneg _

theorem moveAll_range {up down : Int} {cur tgt : Vector Int 24} {lo hi : Int} (hu : 0 ≤ up) (hd : 0 ≤ down)
    (hc : ∀ c : Chan, lo ≤ cur[c] ∧ cur[c] ≤ hi) (ht : ∀ c : Chan, lo ≤ tgt[c] ∧ tgt[c] ≤ hi) (c : Chan) :
    lo ≤ (moveAll up down cur tgt)[c] ∧ (moveAll up down cur tgt)[c] ≤ hi := by
  have := moveToward_range hu hd (hc c) (ht c)
  simpa [moveAll] using this

theorem moveLane_inRange (hc : s.ramp.currents.InRange) (ht : s.gain.targets.InRange) (l : Lane) :
    (moveLane l s).InRange := by
  have hu := upStep_nonneg l (s.ramp.lanes.get l)
  have hd := downStep_nonneg (s.ramp.lanes.get l)
  cases l with
  | user => dsimp only [moveLane]; exact ⟨moveAll_range hu hd hc.user ht.user, hc.speed, hc.mute, hc.duck⟩
  | speed => dsimp only [moveLane]; exact ⟨hc.user, moveAll_range hu hd hc.speed ht.speed, hc.mute, hc.duck⟩
  | mute => dsimp only [moveLane]; exact ⟨hc.user, hc.speed, moveAll_range hu hd hc.mute ht.mute, hc.duck⟩
  | duck =>
    dsimp only [moveLane]
    refine ⟨hc.user, hc.speed, hc.mute, fun z => ?_⟩
    have := moveToward_range hu hd (hc.duck z) (ht.duck z)
    cases z <;> exact this

theorem lanesInv_of (hc : s.ramp.currents.InRange) (hp : PlanRanges s.gain) : LanesInv s := ⟨hc, hp.targets, hp.depth⟩

theorem LanesInv.plan (h : LanesInv s) : PlanRanges s.gain := ⟨h.targets, h.depth⟩

theorem LanesInv.of_same (h : LanesInv s) (hr : t.ramp.currents = s.ramp.currents) (hg : t.gain = s.gain) :
    LanesInv t := ⟨hr ▸ h.currents, hg ▸ h.targets, hg ▸ h.depth⟩

theorem LanesInv.onlyPages (h : LanesInv s) (g : OnlyPagesMove s t) : LanesInv t :=
  h.of_same (by rw [g.ramp]) g.gain

theorem LaneValues.reset_inRange : LaneValues.reset.InRange :=
  ⟨fun c => by simp [LaneValues.reset], fun c => by simp [LaneValues.reset], fun c => by simp [LaneValues.reset],
   fun z => by cases z <;> decide⟩

theorem lanesInv_blocksReset (pins a tw o q) : LanesInv (State.blocksReset pins a tw o q) :=
  ⟨LaneValues.reset_inRange, LaneValues.reset_inRange, fun z => by cases z <;> exact Nat.zero_le _⟩

theorem keptLanes : Kept LanesInv where
  blocksReset := lanesInv_blocksReset
  pins _ _ h := h.of_same rfl rfl
  ringOut _ _ h := h.of_same rfl rfl
  pending _ _ h := h.of_same rfl rfl
  notify _ _ h := h.of_same (by simp) (by simp)
  assembler _ _ h := h.of_same rfl rfl
  sender _ _ h := h.of_same rfl rfl
  address _ _ _ h := h.of_same rfl rfl
  lock _ _ _ h := h.of_same rfl rfl
  command s z c h :=
    lanesInv_of ((takeCommand_frame s z c).currents ▸ h.currents) (h.plan.owned (takeCommand_owned z s c))
  emptied _ h := h.of_same rfl rfl
  lost s h := (h.onlyPages onlyPages_schedLockLoss).onlyPages onlyPages_zeroAllChains
  relocked s h := ⟨{ h.targets with mute := fun c => by simp [rampRelock, setSpeed] }, h.targets, h.depth⟩
  audio _ _ _ h e _ := by subst e; exact h.of_same (by simp [audioAct, storeAudio]) (by simp [audioAct, storeAudio])
  meters s view runs h := h.of_same (by simp [metersAct]) (by simp [metersAct])
  fades s view step h := h.onlyPages (onlyPages_fadesAct _ _)
  completes s i f h _ _ := h.onlyPages ((onlyPages_completeFade _).trans (onlyPages_resettle _))
  grants s i d rest h _ _ := h.onlyPages ((onlyPages_grantHead _).trans (onlyPages_resettle _))
  tick s l h := ⟨moveLane_inRange h.currents h.targets l, h.targets, h.depth⟩
  setLaneCount _ _ _ h _ _ := h.of_same rfl rfl
  expiry s h :=
    LanesInv.of_same (lanesInv_of (s := speedEvent (Machine.expire s.speed) s)
      (by rw [speedEvent_ramp]; exact h.currents) (h.plan.speedEvent _)) (by simp [expiry]) (by simp [expiry])
  countDown _ _ h _ := h.of_same rfl rfl
  duckSample s h := by
    dsimp only [takeDuckSample]
    split
    · refine lanesInv_of (by simpa using h.currents) ?_
      rw [notify_gain]
      refine PlanRanges.recomputeDuck ?_ _
      refine PlanRanges.recomputeDuck ?_ _
      exact h.plan
    · exact h.of_same rfl rfl
  duckCount _ _ h _ _ := h.of_same rfl rfl

/-! ### Prescalers and the sample count (R59, R62, R79) -/

theorem CountersInv.of_same (h : CountersInv s) (hl : t.ramp.lanes = s.ramp.lanes) (hd : t.duck.count = s.duck.count) :
    CountersInv t := ⟨hl ▸ h.lanes, hd ▸ h.duckCount⟩

theorem CountersInv.onlyPages (h : CountersInv s) (g : OnlyPagesMove s t) : CountersInv t :=
  h.of_same (by rw [g.ramp]) (by rw [g.duck])

/-- New settings or a new count for one lane, in range. -/
theorem CountersInv.setLane (h : CountersInv s) {l : Lane} {x : LaneSettings} (hx : x.InRange l)
    (hl : t.ramp.lanes = s.ramp.lanes.set l x) (hd : t.duck = s.duck) : CountersInv t where
  lanes m := by
    rw [hl, PerLane.get_set]
    split
    · subst_vars; exact hx
    · exact h.lanes m
  duckCount := hd ▸ h.duckCount

theorem rampReset_inRange (l : Lane) : (RampEngine.reset.lanes.get l).InRange l := by
  cases l <;> exact ⟨by decide, by decide, by decide, by decide⟩

theorem countersInv_blocksReset (pins a tw o q) : CountersInv (State.blocksReset pins a tw o q) :=
  ⟨rampReset_inRange, show 1 ≤ 48 ∧ 48 ≤ 48 by decide⟩

theorem keptCounters : Kept CountersInv where
  blocksReset := countersInv_blocksReset
  pins _ _ h := h.of_same rfl rfl
  ringOut _ _ h := h.of_same rfl rfl
  pending _ _ h := h.of_same rfl rfl
  notify _ _ h := h.of_same (by simp) (by simp)
  assembler _ _ h := h.of_same rfl rfl
  sender _ _ h := h.of_same rfl rfl
  address _ _ _ h := h.of_same rfl rfl
  lock _ _ _ h := h.of_same rfl rfl
  command s z c h := by
    have hduck := (takeCommand_frame s z c).duck
    rcases takeCommand_lanes s z c with hl | ⟨l, p, a, r, hp, ha, ha', hr, hr', hl⟩
    · exact h.of_same hl (by rw [hduck])
    · obtain ⟨-, -, hsecond, hcount⟩ := h.lanes l
      refine h.setLane ?_ hl hduck
      refine ⟨hp, ⟨ha, ha'⟩, ?_, hcount⟩
      cases hrel : hasRelease l <;> simp_all
  emptied _ h := h.of_same rfl rfl
  lost s h := (h.onlyPages onlyPages_schedLockLoss).onlyPages onlyPages_zeroAllChains
  relocked s h := h.of_same rfl rfl
  audio _ _ _ h e _ := by subst e; exact h.of_same (by simp [audioAct, storeAudio]) (by simp [audioAct, storeAudio])
  meters s view runs h := h.of_same (by simp [metersAct]) (by simp [metersAct])
  fades s view step h := h.onlyPages (onlyPages_fadesAct _ _)
  completes s i f h _ _ := h.onlyPages ((onlyPages_completeFade _).trans (onlyPages_resettle _))
  grants s i d rest h _ _ := h.onlyPages ((onlyPages_grantHead _).trans (onlyPages_resettle _))
  tick s l h := by
    obtain ⟨hp, hf, hsecond, -⟩ := h.lanes l
    refine h.setLane (t := tick l s) (x := { s.ramp.lanes.get l with count := 48 * ((s.ramp.lanes.get l).period + 1) }) ?_ rfl rfl
    exact ⟨hp, hf, hsecond, by constructor <;> dsimp only <;> omega⟩
  setLaneCount s l n h h1 hn := by
    obtain ⟨hp, hf, hsecond, hcount⟩ := h.lanes l
    refine h.setLane ?_ (setLane_lanes s l _) rfl
    exact ⟨hp, hf, hsecond, h1, hn.trans hcount.2⟩
  expiry s h := h.of_same (by simp [expiry]) (by simp [expiry])
  countDown _ _ h _ := h.of_same rfl rfl
  duckSample s h := by
    have hcount : (takeDuckSample s).duck.count = 48 := by
      dsimp only [takeDuckSample]; split <;> simp
    have hlanes : (takeDuckSample s).ramp.lanes = s.ramp.lanes := by
      dsimp only [takeDuckSample]; split <;> simp
    exact ⟨hlanes ▸ h.lanes, by omega⟩
  duckCount s n h h1 hn := ⟨h.lanes, h1, hn.trans h.duckCount.2⟩

/-! ### The Speed Tracker (R85, R86, R91) -/

/-- The ninth law and the ranges of R85 and R86, as a property of the tracker's record. -/
structure SpeedTracker.Sound (t : SpeedTracker) : Prop where
  band : t.accepted ≤ t.effective ∧ t.effective ≤ t.accepted + t.hysteresis
  effective : t.effective ≤ 400
  candidate : ∀ k ∈ t.candidate, k ≤ 400
  counter : t.counter ≤ 122400
  policy : t.jump ≤ 255 ∧ t.hysteresis ≤ 31 ∧ t.timeout ≤ 255 ∧ t.fallback ≤ 400
  stale : t.fresh = false → t.candidate = none ∧ t.accepted = t.fallback ∧ t.effective = t.fallback

theorem speedInv_iff : SpeedInv s ↔ s.speed.Sound :=
  ⟨fun h => ⟨h.band, h.effective, h.candidate, h.counter, h.policy, h.stale⟩,
   fun h => ⟨h.band, h.effective, h.candidate, h.counter, h.policy, h.stale⟩⟩

namespace SpeedTracker.Sound

variable {r : SpeedTracker}

theorem accept (h : r.Sound) {m : Nat} (hm : m ≤ 400) : (Machine.accept m r).Sound := by
  have := h.effective
  have := h.policy
  exact ⟨by simp only [Machine.accept]; omega, by simp only [Machine.accept]; omega, by simp [Machine.accept],
    by simp only [Machine.accept]; omega, h.policy, by simp [Machine.accept]⟩

theorem wait (h : r.Sound) {m : Nat} (hm : m ≤ 400) (hf : r.fresh = true) : ({ r with candidate := some m } : SpeedTracker).Sound :=
  ⟨h.band, h.effective, by simpa using hm, h.counter, h.policy, by simp [hf]⟩

theorem judge (h : r.Sound) {m : Nat} (hm : m ≤ 400) : (Machine.judge m r).Sound := by
  unfold Machine.judge
  split
  · exact h.accept hm
  · rename_i hf
    replace hf : r.fresh = true := by simpa using hf
    split <;> split
    · exact h.accept hm
    · exact h.wait hm hf
    · exact h.accept hm
    · exact h.wait hm hf

theorem expire (h : r.Sound) : (Machine.expire r).Sound := by
  have := h.policy
  exact ⟨by simp [Machine.expire], by simp only [Machine.expire]; omega, by simp [Machine.expire],
    by simp [Machine.expire], h.policy, by simp [Machine.expire]⟩

theorem applyPolicy (h : r.Sound) {j y t f : Nat} (hj : j ≤ 255) (hy : y ≤ 31) (ht : t ≤ 255) (hf : f ≤ 400) :
    (Machine.applyPolicy j y t f r).Sound := by
  have := h.band
  have := h.effective
  dsimp only [Machine.applyPolicy]
  split
  · rename_i hfresh
    exact ⟨by dsimp only; omega, by dsimp only; omega, h.candidate, by dsimp only; omega, ⟨hj, hy, ht, hf⟩,
      by simp_all⟩
  · rename_i hfresh
    exact ⟨by dsimp only; omega, by dsimp only; omega, h.candidate, h.counter, ⟨hj, hy, ht, hf⟩,
      fun _ => ⟨(h.stale (by simpa using hfresh)).1, rfl, rfl⟩⟩

theorem withCounter (h : r.Sound) {n : Nat} (hn : n ≤ 122400) : ({ r with counter := n } : SpeedTracker).Sound :=
  ⟨h.band, h.effective, h.candidate, hn, h.policy, h.stale⟩

end SpeedTracker.Sound

theorem SpeedInv.of_same (h : SpeedInv s) (e : t.speed = s.speed) : SpeedInv t :=
  speedInv_iff.mpr (e ▸ speedInv_iff.mp h)

theorem SpeedInv.to (h : t.speed.Sound) : SpeedInv t := speedInv_iff.mpr h

theorem keptSpeed : Kept SpeedInv where
  blocksReset _ _ _ _ _ := .to (show SpeedTracker.reset.Sound from
    ⟨by decide, by decide, by decide, by decide, by decide, by decide⟩)
  pins _ _ h := h.of_same rfl
  ringOut _ _ h := h.of_same rfl
  pending _ _ h := h.of_same rfl
  notify _ _ h := h.of_same (by simp)
  assembler _ _ h := h.of_same rfl
  sender _ _ h := h.of_same rfl
  address _ _ _ h := h.of_same rfl
  lock _ _ _ h := h.of_same rfl
  command s z c h := by
    have hs := speedInv_iff.mp h
    rcases takeCommand_speed s z c with e | ⟨m, hm, e⟩ | ⟨j, y, t, f, hj, hy, ht, hf, e⟩
    · exact h.of_same e
    · exact .to (e ▸ hs.judge hm)
    · exact .to (e ▸ hs.applyPolicy hj hy ht hf)
  emptied _ h := h.of_same rfl
  lost s h := (h.of_same (onlyPages_schedLockLoss (s := s)).speed).of_same (zeroAllChains_speed _)
  relocked s h := by
    have hp := h.policy
    exact .to ((speedInv_iff.mp h).withCounter (n := s.speed.timeout * 480) (by omega))
  audio _ _ _ h e _ := by subst e; exact h.of_same (by simp [audioAct, storeAudio])
  meters s view runs h := h.of_same (by simp [metersAct])
  fades s view step h := h.of_same (onlyPages_fadesAct _ _).speed
  completes s i f h _ _ := h.of_same ((onlyPages_completeFade _).trans (onlyPages_resettle _)).speed
  grants s i d rest h _ _ := h.of_same ((onlyPages_grantHead _).trans (onlyPages_resettle _)).speed
  tick s l h := h.of_same rfl
  setLaneCount _ _ _ h _ _ := h.of_same rfl
  expiry s h := .to (by simpa [expiry] using (speedInv_iff.mp h).expire)
  countDown s n h hn := .to ((speedInv_iff.mp h).withCounter (hn.trans h.counter))
  duckSample s h := h.of_same (by dsimp only [takeDuckSample]; split <;> simp)
  duckCount _ _ h _ _ := h.of_same rfl

/-! ### Pending notices (R161, R162) -/

/-- From `s` to `t` the enabled kinds stand, and a notice is recorded only where its kind is enabled. -/
structure NoticesGrow (s t : State) : Prop where
  enabled : t.notices.enabled = s.notices.enabled
  added : ∀ k, hasKind t.notices.pending k = true →
    hasKind s.notices.pending k = true ∨ hasKind s.notices.enabled k = true

theorem NoticesGrow.of_same (h : t.notices = s.notices) : NoticesGrow s t := ⟨by rw [h], fun _ hk => .inl (h ▸ hk)⟩

theorem NoticesGrow.trans {u : State} (h : NoticesGrow s t) (g : NoticesGrow t u) : NoticesGrow s u where
  enabled := g.enabled.trans h.enabled
  added k hk := by
    rcases g.added k hk with hp | he
    · exact h.added k hp
    · exact .inr (h.enabled ▸ he)

theorem NoticesGrow.onlyPages (g : OnlyPagesMove s t) : NoticesGrow s t where
  enabled := g.enabled
  added k hk := by
    by_cases hks : k = .pageSettled
    · subst hks; exact g.raises hk
    · exact .inl (g.kinds k hks ▸ hk)

theorem NoticesGrow.notify (k : NoticeKind) (s : State) : NoticesGrow s (notify k s) where
  enabled := by simp
  added j hj := by
    simp only [notify_pending_has, Bool.or_eq_true, Bool.and_eq_true, decide_eq_true_eq] at hj
    rcases hj with hj | ⟨rfl, he⟩
    · exact .inl hj
    · exact .inr he

theorem NoticesGrow.notifyIf (b : Bool) (k : NoticeKind) (s : State) : NoticesGrow s (notifyIf b k s) := by
  unfold Machine.notifyIf
  split
  · exact .notify k s
  · exact .of_same rfl

theorem NoticesGrow.reviewPages (a b : Bool) (s : State) : NoticesGrow s (reviewPages a b s) :=
  NoticesGrow.trans (t := { s with gain.zones := reviewedZones a b s.gain.zones }) (.of_same rfl)
    (.onlyPages (onlyPages_reviewPages s a b))

theorem NoticesGrow.reviewPage_of (z : Zone) (h : t.notices = s.notices) : NoticesGrow s (reviewPage z t) :=
  (NoticesGrow.of_same h).trans (.reviewPages _ _ t)

theorem NoticesGrow.speedEvent (r : SpeedTracker) (s : State) : NoticesGrow s (speedEvent r s) := by
  unfold Machine.speedEvent handEffective
  split
  · exact (NoticesGrow.of_same (by simp [setSpeed])).trans (.reviewPages _ _ _)
  · exact .of_same rfl

theorem NoticesGrow.metersAct (view : View) (runs : Runs) (s : State) : NoticesGrow s (metersAct view runs s) := by
  dsimp only [Machine.metersAct]
  refine NoticesGrow.trans ?_ (.notifyIf _ _ _)
  exact .of_same rfl

theorem NoticesGrow.loadRecord (c : Chan) (r : ChannelRecord) (s : State) : NoticesGrow s (loadRecord c r s) := by
  have hstore : NoticesGrow s (storeRecord c r s) := .of_same (by simp)
  rcases loadRecord_cases s c r with h | ⟨_, _, t, h, e⟩
  · exact hstore.trans (.onlyPages h)
  · rw [e]; exact hstore.trans ((NoticesGrow.onlyPages h).trans (.of_same rfl))

theorem NoticesInv.grow (h : NoticesInv s) (g : NoticesGrow s t) : NoticesInv t := by
  intro k hk
  rw [g.enabled]
  rcases g.added k hk with hp | he
  · exact h k hp
  · exact he

theorem NoticesInv.of_same (h : NoticesInv s) (e : t.notices = s.notices) : NoticesInv t := h.grow (.of_same e)

theorem hasKind_keepKinds (n m : NoticeSet) (k : NoticeKind) :
    hasKind (keepKinds n m) k = (hasKind n k && hasKind m k) := by cases k <;> rfl

theorem hasKind_empty (k : NoticeKind) : hasKind NoticeSet.empty k = false := by cases k <;> rfl

theorem NoticesInv.owned (h : NoticesInv s) (ho : Owned s t) : NoticesInv t := by
  cases ho with
  | options z o => exact h.grow (.reviewPage_of z (by simp))
  | sdv z curve => exact h.grow (.reviewPage_of z (by simp))
  | userPage z p => exact h.grow (.reviewPage_of z rfl)
  | reading => exact h.grow (.speedEvent _ _)
  | policy => exact h.grow (.speedEvent _ _)
  | record c r => exact h.grow (.loadRecord c r s)
  | kinds k =>
    intro j hj
    simp only [hasKind_keepKinds, Bool.and_eq_true] at hj
    exact hj.2
  | polled => intro k hk; rw [hasKind_empty] at hk; cases hk
  | roll r => exact h
  | nothing | cabin | trim | mute | volume | zoneMute | duck | pace | source | coeffs | program | metersRead =>
    exact h.of_same (by simp [storeSource])

theorem keptNotices : Kept NoticesInv where
  blocksReset _ _ _ _ _ := fun k hk => by
    change hasKind NoticeSet.empty k = true at hk
    rw [hasKind_empty] at hk
    cases hk
  pins _ _ h := h.of_same rfl
  ringOut _ _ h := h.of_same rfl
  pending _ _ h := h.of_same rfl
  notify _ _ h := h.grow (.notify _ _)
  assembler _ _ h := h.of_same rfl
  sender _ _ h := h.of_same rfl
  address _ _ _ h := h.of_same rfl
  lock _ _ _ h := h.of_same rfl
  command s z c h := h.owned (takeCommand_owned z s c)
  emptied _ h := h.of_same rfl
  lost s h := (h.grow (.onlyPages onlyPages_schedLockLoss)).of_same (zeroAllChains_notices _)
  relocked s h := h.of_same rfl
  audio _ _ _ h e _ := by subst e; exact h.of_same (by simp [audioAct, storeAudio])
  meters s view runs h := h.grow (.metersAct view runs s)
  fades s view step h := h.grow (.onlyPages (onlyPages_fadesAct _ _))
  completes s i f h _ _ := h.grow (.onlyPages ((onlyPages_completeFade _).trans (onlyPages_resettle _)))
  grants s i d rest h _ _ := h.grow (.onlyPages ((onlyPages_grantHead _).trans (onlyPages_resettle _)))
  tick s l h := h.of_same rfl
  setLaneCount _ _ _ h _ _ := h.of_same rfl
  expiry s h := h.grow ((NoticesGrow.speedEvent _ s).trans (.notify _ _))
  countDown _ _ h _ := h.of_same rfl
  duckSample s h := by
    dsimp only [takeDuckSample]
    split
    · refine NoticesInv.grow ?_ (.notify _ _)
      exact h.of_same (by simp)
    · exact h
  duckCount _ _ h _ _ := h.of_same rfl

/-! ### The meters (R167) -/

theorem MetersInv.of_same (h : MetersInv s) (e : t.output = s.output) : MetersInv t :=
  ⟨e ▸ h.clips, e ▸ h.peaks⟩

theorem metersInv_of_reset (e : t.output = OutputStage.reset) : MetersInv t :=
  ⟨fun c => by simp [e, OutputStage.reset], fun z => by rw [e]; cases z <;> decide⟩

theorem magnitude_le (x : Sample) : magnitude x ≤ 8388608 := by
  have := BitVec.le_toInt x
  have := BitVec.toInt_lt (x := x)
  unfold magnitude
  norm_num at *
  omega

theorem peakAfter_le (s : State) (view : View) (runs : Runs) (z : Zone) (h : s.output.peaks.get z ≤ 8388608) :
    peakAfter s view runs z ≤ 8388608 := by
  unfold peakAfter
  generalize List.finRange 24 = l
  generalize s.output.peaks.get z = p at h
  induction l generalizing p with
  | nil => exact h
  | cons c l ih =>
    refine ih _ ?_
    dsimp only
    split
    · split
      · exact Nat.max_le.mpr ⟨h, magnitude_le _⟩
      · exact h
    · exact h

theorem clipsAfter_le (s : State) (runs : Runs) (c : Chan) (h : s.output.clips[c] ≤ 65535) :
    (clipsAfter s runs)[c] ≤ 65535 := by
  simp only [clipsAfter, Fin.getElem_fin, Vector.getElem_ofFn]
  split
  · split
    · exact Nat.min_le_left _ _
    · exact h
  · exact h

theorem MetersInv.metersAct (h : MetersInv s) (view : View) (runs : Runs) : MetersInv (metersAct view runs s) := by
  have e : (Machine.metersAct view runs s).output =
      { clips := clipsAfter s runs, peaks := { a := peakAfter s view runs .a, b := peakAfter s view runs .b } } := by
    simp [Machine.metersAct]
  refine ⟨fun c => ?_, fun z => ?_⟩
  · rw [e]; exact clipsAfter_le s runs c (h.clips c)
  · rw [e]; cases z <;> exact peakAfter_le s view runs _ (h.peaks _)

theorem keptMeters : Kept MetersInv where
  blocksReset _ _ _ _ _ := metersInv_of_reset rfl
  pins _ _ h := h.of_same rfl
  ringOut _ _ h := h.of_same rfl
  pending _ _ h := h.of_same rfl
  notify _ _ h := h.of_same (by simp)
  assembler _ _ h := h.of_same rfl
  sender _ _ h := h.of_same rfl
  address _ _ _ h := h.of_same rfl
  lock _ _ _ h := h.of_same rfl
  command s z c h := by
    rcases takeCommand_output s z c with e | e
    · exact h.of_same e
    · exact metersInv_of_reset e
  emptied _ h := h.of_same rfl
  lost s h := (h.of_same (onlyPages_schedLockLoss (s := s)).output).of_same (zeroAllChains_output _)
  relocked s h := h.of_same rfl
  audio _ _ _ h e _ := by subst e; exact h.of_same (by simp [audioAct, storeAudio])
  meters s view runs h := h.metersAct view runs
  fades s view step h := h.of_same (onlyPages_fadesAct _ _).output
  completes s i f h _ _ := h.of_same ((onlyPages_completeFade _).trans (onlyPages_resettle _)).output
  grants s i d rest h _ _ := h.of_same ((onlyPages_grantHead _).trans (onlyPages_resettle _)).output
  tick s l h := h.of_same rfl
  setLaneCount _ _ _ h _ _ := h.of_same rfl
  expiry s h := h.of_same (by simp [expiry])
  countDown _ _ h _ := h.of_same rfl
  duckSample s h := h.of_same (by dsimp only [takeDuckSample]; split <;> simp)
  duckCount _ _ h _ _ := h.of_same rfl

/-! ### The statement -/

/-- Settles O51: each of the five invariants is kept by every act the rows are made of. -/
theorem rangesKept : Obligations.RangesKept := by
  intro s t e
  exact ⟨fun h => step_keeps keptLanes h e, fun h => step_keeps keptCounters h e, fun h => step_keeps keptSpeed h e,
    fun h => step_keeps keptNotices h e, fun h => step_keeps keptMeters h e⟩

end Sys2Proof.Machine
end

section
/-! The routing stays sound (R18, R22, R23, R32) and the gain plan up to date (R52, R53, R55, R105, R111). -/

namespace Sys2Proof.Machine

variable {s t u : State}

/-! ### Routing -/

theorem RoutingInv.of_same (h : RoutingInv s) (hc : t.channels = s.channels) (hs : t.sources = s.sources) :
    RoutingInv t := by
  obtain ⟨hw, hr, ht, hp, hl⟩ := h
  rw [← hc] at hw hr ht hp hl
  rw [← hs] at hr
  exact ⟨hw, hr, ht, hp, hl⟩

theorem RoutingInv.onlyPages (h : RoutingInv s) (g : OnlyPagesMove s t) : RoutingInv t := h.of_same g.channels g.sources

/-- A record that passes the checks of R22, its fields clamped, keeps the routing sound. -/
theorem RoutingInv.setRecord (h : RoutingInv s) (c : Chan) (r : ChannelRecord)
    (others : ∀ k, r.out = some k → ∀ d : Chan, d ≠ c → s.channels[d].out ≠ some k)
    (unread : ∀ k, r.out = some k → ∀ i : SourceId, s.sources[i] ≠ some k)
    (taps : r.taps.length ≤ 4 ∧ ∀ t ∈ r.taps, -768 ≤ t.gain ∧ t.gain ≤ 0)
    (placement : -8 ≤ r.x ∧ r.x ≤ 8 ∧ r.y ≤ 15) (levels : -96 ≤ r.trim ∧ r.trim ≤ 96 ∧ r.weight ≤ 16) :
    RoutingInv (setRecord c r s) := by
  have at' : ∀ d : Chan, (Machine.setRecord c r s).channels[d] = if d = c then r else s.channels[d] := by
    intro d
    simp [Vector.getElem_set, Fin.ext_iff, eq_comm]
  refine ⟨fun d e k hd he => ?_, fun d i k hd => ?_, fun d => ?_, fun d => ?_, fun d => ?_⟩
  · rw [at'] at hd he
    split at hd <;> split at he
    · subst_vars; rfl
    · exact absurd he (others k hd e (by assumption))
    · exact absurd hd (others k he d (by assumption))
    · exact h.writtenOnce d e k hd he
  · rw [at'] at hd
    split at hd
    · exact unread k hd i
    · exact h.notRead d i k hd
  · rw [at']; split; exacts [taps, h.taps d]
  · rw [at']; split; exacts [placement, h.placement d]
  · rw [at']; split; exacts [levels, h.levels d]

theorem RoutingInv.storeSource (h : RoutingInv s) (i : SourceId) (slot : Option AudioSlot)
    (free : ∀ k, slot = some k → ∀ c : Chan, s.channels[c].out ≠ some k) : RoutingInv (storeSource i slot s) := by
  refine ⟨h.writtenOnce, fun c j k hc => ?_, h.taps, h.placement, h.levels⟩
  change (s.sources.set i slot)[j.val] ≠ some k
  rw [Vector.getElem_set]
  split
  · exact fun hk => free k hk c hc
  · exact h.notRead c j k hc

theorem RoutingInv.owned (h : RoutingInv s) (ho : Owned s t) : RoutingInv t := by
  cases ho with
  | trim c v lo hi =>
    refine RoutingInv.of_same (s := Machine.setRecord c { s.channels[c] with trim := v } s) ?_ (by simp) (by simp)
    exact h.setRecord c _ (fun k hk d hd hk' => hd (h.writtenOnce d c k hk' hk)) (fun k hk i => h.notRead c i k hk)
      (h.taps c) (h.placement c) ⟨lo, hi, (h.levels c).2.2⟩
  | record c r others unread taps placement levels =>
    exact (h.setRecord c r others unread taps placement levels).of_same (by simp) (by simp)
  | source i slot free => exact h.storeSource i slot free
  | nothing | cabin | mute | volume | zoneMute | duck | options | pace | reading | policy | sdv | coeffs | program
    | userPage | kinds | polled | roll | metersRead => exact h.of_same (by simp) (by simp)

theorem keptRouting : Kept RoutingInv where
  blocksReset pins a tw o q := by
    have hch : ∀ c : Chan, (State.blocksReset pins a tw o q).channels[c] = ChannelRecord.reset :=
      fun c => by simp [State.blocksReset]
    refine ⟨fun c d k hc => ?_, fun c i k hc => ?_, fun c => ?_, fun c => ?_, fun c => ?_⟩
    · rw [hch] at hc; cases hc
    · rw [hch] at hc; cases hc
    · rw [hch]; decide
    · rw [hch]; decide
    · rw [hch]; decide
  pins _ _ h := h.of_same rfl rfl
  ringOut _ _ h := h.of_same rfl rfl
  pending _ _ h := h.of_same rfl rfl
  notify _ _ h := h.of_same (by simp) (by simp)
  assembler _ _ h := h.of_same rfl rfl
  sender _ _ h := h.of_same rfl rfl
  address _ _ _ h := h.of_same rfl rfl
  lock _ _ _ h := h.of_same rfl rfl
  command s z c h := h.owned (takeCommand_owned z s c)
  emptied _ h := h.of_same rfl rfl
  lost s h := (h.onlyPages onlyPages_schedLockLoss).onlyPages onlyPages_zeroAllChains
  relocked s h := h.of_same rfl rfl
  audio _ _ _ h e _ := by
    subst e; exact h.of_same (by simp [audioAct, storeAudio]) (by simp [audioAct, storeAudio])
  meters s view runs h := h.of_same (by simp [metersAct]) (by simp [metersAct])
  fades s view step h := h.onlyPages (onlyPages_fadesAct _ _)
  completes s i f h _ _ := h.onlyPages ((onlyPages_completeFade _).trans (onlyPages_resettle _))
  grants s i d rest h _ _ := h.onlyPages ((onlyPages_grantHead _).trans (onlyPages_resettle _))
  tick s l h := h.of_same rfl rfl
  setLaneCount _ _ _ h _ _ := h.of_same rfl rfl
  expiry s h := h.of_same (by simp [expiry]) (by simp [expiry])
  countDown _ _ h _ := h.of_same rfl rfl
  duckSample s h := h.of_same (by dsimp only [takeDuckSample]; split <;> simp)
    (by dsimp only [takeDuckSample]; split <;> simp)
  duckCount _ _ h _ _ := h.of_same rfl rfl

/-- Settles O53: the routing is kept by every act the rows are made of. -/
theorem routingKept : Obligations.RoutingKept := fun _ _ h e => step_keeps keptRouting h e

/-! ### The gain plan, channel by channel and zone by zone -/

/-- The user target of a channel is the one its inputs give (R45). -/
def UserAt (s : State) (c : Chan) : Prop :=
  s.gain.targets.user[c] = userTarget s.gain.cabin (s.gain.zones.get s.channels[c].zone) s.channels[c]

/-- The speed target of a channel is the one its inputs give (R48). -/
def SpeedAt (s : State) (c : Chan) : Prop :=
  s.gain.targets.speed[c] = speedTarget (s.gain.zones.get s.channels[c].zone) s.channels[c]

/-- The mute target of a channel is the one its inputs give (R49). -/
def MuteAt (s : State) (c : Chan) : Prop :=
  s.gain.targets.mute[c] = muteTarget s.gain.mutes[c] (s.gain.zones.get s.channels[c].zone)

/-- The duck target of a zone is the one its inputs give (R50). -/
def DuckAt (s : State) (z : Zone) : Prop :=
  s.gain.targets.duck.get z = duckTarget (s.gain.zones.get z) s.duck.level

/-- The boost and the band of a zone are those of its curve at the effective speed (R47, R103). -/
def SdvAt (s : State) (z : Zone) : Prop :=
  (s.gain.zones.get z).boost = sdvBoost (s.gain.zones.get z).sdv s.speed.effective ∧
  (s.gain.zones.get z).band = sdvBand (s.gain.zones.get z).sdv s.speed.effective

/-- The requested page of a zone is the one its options, band and user page give (R105). -/
def RequestedAt (s : State) (z : Zone) : Prop := (s.gain.zones.get z).requestedPage = evalRequested (s.gain.zones.get z)

theorem planInv_iff : PlanInv s ↔
    (∀ c, UserAt s c) ∧ (∀ c, SpeedAt s c) ∧ (∀ c, MuteAt s c) ∧ (∀ z, DuckAt s z) ∧ (∀ z, SdvAt s z) ∧
      ∀ z, RequestedAt s z :=
  ⟨fun h => ⟨h.user, h.speed, h.mute, h.duck, fun z => ⟨h.boost z, h.band z⟩, h.requested⟩,
   fun ⟨hu, hs, hm, hd, hz, hr⟩ => ⟨hu, hs, hm, hd, fun z => (hz z).1, fun z => (hz z).2, hr⟩⟩

/-- The inputs and the targets of the gain plan are the same. -/
structure SamePlan (s t : State) : Prop where
  gain : t.gain = s.gain
  channels : t.channels = s.channels
  level : t.duck.level = s.duck.level
  effective : t.speed.effective = s.speed.effective

theorem PlanInv.of_same (h : PlanInv s) (g : SamePlan s t) : PlanInv t := by
  obtain ⟨hg, hc, hl, he⟩ := g
  obtain ⟨h1, h2, h3, h4, h5, h6, h7⟩ := h
  constructor <;> simp only [hg, hc, hl, he] <;> assumption

theorem SamePlan.onlyPages (g : OnlyPagesMove s t) : SamePlan s t := ⟨g.gain, g.channels, by rw [g.duck], by rw [g.speed]⟩

/-! What a target reads of its zone's record. -/

theorem userTarget_congr {y z : ZoneRecord} (hs : y.step = z.step) (hc : y.curve = z.curve) (cab : Cabin)
    (r : ChannelRecord) : userTarget cab y r = userTarget cab z r := by
  simp [userTarget, zoneVolume, hs, hc]

theorem speedTarget_congr {y z : ZoneRecord} (hs : y.step = z.step) (hc : y.curve = z.curve) (hb : y.boost = z.boost)
    (hl : y.ceiling = z.ceiling) (r : ChannelRecord) : speedTarget y r = speedTarget z r := by
  have hw : weightedBoost y r = weightedBoost z r := by rw [weightedBoost, hb, ← weightedBoost]
  have hv : zoneVolume y = zoneVolume z := by simp [zoneVolume, hs, hc]
  dsimp only [speedTarget]
  rw [hw, hv, hl]

theorem muteTarget_congr {y z : ZoneRecord} (h : y.mute = z.mute) (b : Bool) : muteTarget b y = muteTarget b z := by
  simp [muteTarget, h]

theorem duckTarget_congr {y z : ZoneRecord} (hc : y.commandDuck = z.commandDuck) (hm : y.mask = z.mask)
    (hd : y.depth = z.depth) (b : Bool) : duckTarget y b = duckTarget z b := by
  simp [duckTarget, duckActive, hc, hm, hd]

/-! Recomputing the targets of some channels. -/

variable (p : Chan → Bool)

@[simp] theorem userAt_recomputeUser (c : Chan) : UserAt (recomputeUser p s) c ↔ (p c = true ∨ UserAt s c) := by
  unfold UserAt
  rw [userTarget_at, recomputeUser_cabin, recomputeUser_zones, recomputeUser_channels]
  cases p c <;> simp

@[simp] theorem speedAt_recomputeUser (c : Chan) : SpeedAt (recomputeUser p s) c ↔ SpeedAt s c := by
  unfold SpeedAt
  rw [recomputeUser_speedTargets, recomputeUser_zones, recomputeUser_channels]

@[simp] theorem muteAt_recomputeUser (c : Chan) : MuteAt (recomputeUser p s) c ↔ MuteAt s c := by
  unfold MuteAt
  rw [recomputeUser_muteTargets, recomputeUser_zones, recomputeUser_channels, recomputeUser_mutes]

@[simp] theorem duckAt_recomputeUser (z : Zone) : DuckAt (recomputeUser p s) z ↔ DuckAt s z := by
  unfold DuckAt
  rw [recomputeUser_duckTargets, recomputeUser_zones, recomputeUser_duck]

@[simp] theorem sdvAt_recomputeUser (z : Zone) : SdvAt (recomputeUser p s) z ↔ SdvAt s z := by
  unfold SdvAt
  rw [recomputeUser_zones, recomputeUser_speed]

@[simp] theorem requestedAt_recomputeUser (z : Zone) : RequestedAt (recomputeUser p s) z ↔ RequestedAt s z := by
  unfold RequestedAt
  rw [recomputeUser_zones]

@[simp] theorem userAt_recomputeSpeed (c : Chan) : UserAt (recomputeSpeed p s) c ↔ UserAt s c := by
  unfold UserAt
  rw [recomputeSpeed_userTargets, recomputeSpeed_cabin, recomputeSpeed_zones, recomputeSpeed_channels]

@[simp] theorem speedAt_recomputeSpeed (c : Chan) : SpeedAt (recomputeSpeed p s) c ↔ (p c = true ∨ SpeedAt s c) := by
  unfold SpeedAt
  rw [speedTarget_at, recomputeSpeed_zones, recomputeSpeed_channels]
  cases p c <;> simp

@[simp] theorem muteAt_recomputeSpeed (c : Chan) : MuteAt (recomputeSpeed p s) c ↔ MuteAt s c := by
  unfold MuteAt
  rw [recomputeSpeed_muteTargets, recomputeSpeed_zones, recomputeSpeed_channels, recomputeSpeed_mutes]

@[simp] theorem duckAt_recomputeSpeed (z : Zone) : DuckAt (recomputeSpeed p s) z ↔ DuckAt s z := by
  unfold DuckAt
  rw [recomputeSpeed_duckTargets, recomputeSpeed_zones, recomputeSpeed_duck]

@[simp] theorem sdvAt_recomputeSpeed (z : Zone) : SdvAt (recomputeSpeed p s) z ↔ SdvAt s z := by
  unfold SdvAt
  rw [recomputeSpeed_zones, recomputeSpeed_speed]

@[simp] theorem requestedAt_recomputeSpeed (z : Zone) : RequestedAt (recomputeSpeed p s) z ↔ RequestedAt s z := by
  unfold RequestedAt
  rw [recomputeSpeed_zones]

@[simp] theorem userAt_recomputeMute (c : Chan) : UserAt (recomputeMute p s) c ↔ UserAt s c := by
  unfold UserAt
  rw [recomputeMute_userTargets, recomputeMute_cabin, recomputeMute_zones, recomputeMute_channels]

@[simp] theorem speedAt_recomputeMute (c : Chan) : SpeedAt (recomputeMute p s) c ↔ SpeedAt s c := by
  unfold SpeedAt
  rw [recomputeMute_speedTargets, recomputeMute_zones, recomputeMute_channels]

@[simp] theorem muteAt_recomputeMute (c : Chan) : MuteAt (recomputeMute p s) c ↔ (p c = true ∨ MuteAt s c) := by
  unfold MuteAt
  rw [muteTarget_at, recomputeMute_zones, recomputeMute_channels, recomputeMute_mutes]
  cases p c <;> simp

@[simp] theorem duckAt_recomputeMute (z : Zone) : DuckAt (recomputeMute p s) z ↔ DuckAt s z := by
  unfold DuckAt
  rw [recomputeMute_duckTargets, recomputeMute_zones, recomputeMute_duck]

@[simp] theorem sdvAt_recomputeMute (z : Zone) : SdvAt (recomputeMute p s) z ↔ SdvAt s z := by
  unfold SdvAt
  rw [recomputeMute_zones, recomputeMute_speed]

@[simp] theorem requestedAt_recomputeMute (z : Zone) : RequestedAt (recomputeMute p s) z ↔ RequestedAt s z := by
  unfold RequestedAt
  rw [recomputeMute_zones]

@[simp] theorem userAt_recomputeDuck (y : Zone) (c : Chan) : UserAt (recomputeDuck y s) c ↔ UserAt s c := by
  unfold UserAt
  rw [recomputeDuck_userTargets, recomputeDuck_cabin, recomputeDuck_zones, recomputeDuck_channels]

@[simp] theorem speedAt_recomputeDuck (y : Zone) (c : Chan) : SpeedAt (recomputeDuck y s) c ↔ SpeedAt s c := by
  unfold SpeedAt
  rw [recomputeDuck_speedTargets, recomputeDuck_zones, recomputeDuck_channels]

@[simp] theorem muteAt_recomputeDuck (y : Zone) (c : Chan) : MuteAt (recomputeDuck y s) c ↔ MuteAt s c := by
  unfold MuteAt
  rw [recomputeDuck_muteTargets, recomputeDuck_zones, recomputeDuck_channels, recomputeDuck_mutes]

@[simp] theorem duckAt_recomputeDuck (y z : Zone) : DuckAt (recomputeDuck y s) z ↔ (z = y ∨ DuckAt s z) := by
  unfold DuckAt
  rw [duckTarget_at, recomputeDuck_zones, recomputeDuck_duck]
  by_cases h : z = y <;> simp [h]

@[simp] theorem sdvAt_recomputeDuck (y z : Zone) : SdvAt (recomputeDuck y s) z ↔ SdvAt s z := by
  unfold SdvAt
  rw [recomputeDuck_zones, recomputeDuck_speed]

@[simp] theorem requestedAt_recomputeDuck (y z : Zone) : RequestedAt (recomputeDuck y s) z ↔ RequestedAt s z := by
  unfold RequestedAt
  rw [recomputeDuck_zones]

/-! Re-evaluating requested pages changes nothing that a target reads. -/

theorem reviewedZones_get (a b : Bool) (zs : PerZone ZoneRecord) (z : Zone) :
    ∃ q, (reviewedZones a b zs).get z = { zs.get z with requestedPage := q } := by
  cases z
  · cases a
    · exact ⟨zs.a.requestedPage, rfl⟩
    · exact ⟨_, rfl⟩
  · cases b
    · exact ⟨zs.b.requestedPage, rfl⟩
    · exact ⟨_, rfl⟩

theorem userAt_reviewPages (a b : Bool) (c : Chan) : UserAt (reviewPages a b s) c ↔ UserAt s c := by
  obtain ⟨q, hq⟩ := reviewedZones_get a b s.gain.zones s.channels[c].zone
  unfold UserAt
  rw [reviewPages_gain_targets, reviewPages_gain_cabin, reviewPages_zones, reviewPages_channels, hq]
  exact Iff.rfl

theorem speedAt_reviewPages (a b : Bool) (c : Chan) : SpeedAt (reviewPages a b s) c ↔ SpeedAt s c := by
  obtain ⟨q, hq⟩ := reviewedZones_get a b s.gain.zones s.channels[c].zone
  unfold SpeedAt
  rw [reviewPages_gain_targets, reviewPages_zones, reviewPages_channels, hq]
  exact Iff.rfl

theorem muteAt_reviewPages (a b : Bool) (c : Chan) : MuteAt (reviewPages a b s) c ↔ MuteAt s c := by
  obtain ⟨q, hq⟩ := reviewedZones_get a b s.gain.zones s.channels[c].zone
  unfold MuteAt
  rw [reviewPages_gain_targets, reviewPages_gain_mutes, reviewPages_zones, reviewPages_channels, hq]
  exact Iff.rfl

theorem duckAt_reviewPages (a b : Bool) (z : Zone) : DuckAt (reviewPages a b s) z ↔ DuckAt s z := by
  obtain ⟨q, hq⟩ := reviewedZones_get a b s.gain.zones z
  unfold DuckAt
  rw [reviewPages_gain_targets, reviewPages_zones, reviewPages_duck, hq]
  exact Iff.rfl

theorem sdvAt_reviewPages (a b : Bool) (z : Zone) : SdvAt (reviewPages a b s) z ↔ SdvAt s z := by
  obtain ⟨q, hq⟩ := reviewedZones_get a b s.gain.zones z
  unfold SdvAt
  rw [reviewPages_zones, reviewPages_speed, hq]

theorem requestedAt_reviewPages (a b : Bool) (z : Zone) : RequestedAt (reviewPages a b s) z ↔
    ((match z with | .a => a | .b => b) = true ∨ RequestedAt s z) := by
  unfold RequestedAt
  rw [reviewPages_zones]
  cases z
  · cases a
    · simp [reviewedZones, PerZone.get]
    · simp only [true_or, iff_true]; exact rfl
  · cases b
    · simp [reviewedZones, PerZone.get]
    · simp only [true_or, iff_true]; exact rfl

/-- The plan is up to date after a zone's page is re-evaluated, if all but that page was before. -/
theorem planInv_reviewPage (z : Zone) (hu : ∀ c, UserAt s c) (hs : ∀ c, SpeedAt s c) (hm : ∀ c, MuteAt s c)
    (hd : ∀ y, DuckAt s y) (hz : ∀ y, SdvAt s y) (hr : ∀ y, y ≠ z → RequestedAt s y) : PlanInv (reviewPage z s) := by
  refine planInv_iff.mpr ⟨fun c => (userAt_reviewPages _ _ c).mpr (hu c), fun c => (speedAt_reviewPages _ _ c).mpr (hs c),
    fun c => (muteAt_reviewPages _ _ c).mpr (hm c), fun y => (duckAt_reviewPages _ _ y).mpr (hd y),
    fun y => (sdvAt_reviewPages _ _ y).mpr (hz y), fun y => (requestedAt_reviewPages _ _ y).mpr ?_⟩
  by_cases hy : y = z
  · left; subst hy; cases y <;> rfl
  · exact .inr (hr y hy)

/-! ### A new zone record -/

section

variable {z : Zone} {r : ZoneRecord}

theorem setZone_get (z : Zone) (r : ZoneRecord) (s : State) (y : Zone) :
    (setZone z r s).gain.zones.get y = if y = z then r else s.gain.zones.get y := by
  rw [setZone_zones, PerZone.get_set]

/-- A zone record with the volume it had leaves the user targets up to date; else its own channels' are formed anew. -/
theorem userAt_setZone {c : Chan} (h : UserAt s c)
    (hr : s.channels[c].zone = z → r.step = (s.gain.zones.get z).step ∧ r.curve = (s.gain.zones.get z).curve) :
    UserAt (setZone z r s) c := by
  unfold UserAt at h ⊢
  rw [setZone_get, setZone_targets, setZone_cabin, setZone_channels]
  split
  · rename_i hz
    obtain ⟨hs, hc⟩ := hr hz
    rw [h, hz]
    exact (userTarget_congr hs hc _ _).symm
  · exact h

theorem speedAt_setZone {c : Chan} (h : SpeedAt s c)
    (hr : s.channels[c].zone = z → r.step = (s.gain.zones.get z).step ∧ r.curve = (s.gain.zones.get z).curve ∧
      r.boost = (s.gain.zones.get z).boost ∧ r.ceiling = (s.gain.zones.get z).ceiling) :
    SpeedAt (setZone z r s) c := by
  unfold SpeedAt at h ⊢
  rw [setZone_get, setZone_targets, setZone_channels]
  split
  · rename_i hz
    obtain ⟨hs, hc, hb, hl⟩ := hr hz
    rw [h, hz]
    exact (speedTarget_congr hs hc hb hl _).symm
  · exact h

theorem muteAt_setZone {c : Chan} (h : MuteAt s c) (hr : s.channels[c].zone = z → r.mute = (s.gain.zones.get z).mute) :
    MuteAt (setZone z r s) c := by
  unfold MuteAt at h ⊢
  rw [setZone_get, setZone_targets, setZone_channels, setZone_mutes]
  split
  · rename_i hz
    rw [h, hz]
    exact (muteTarget_congr (hr hz) _).symm
  · exact h

theorem duckAt_setZone {y : Zone} (h : DuckAt s y) (hr : y = z → r.commandDuck = (s.gain.zones.get z).commandDuck ∧
    r.mask = (s.gain.zones.get z).mask ∧ r.depth = (s.gain.zones.get z).depth) : DuckAt (setZone z r s) y := by
  unfold DuckAt at h ⊢
  rw [setZone_get, setZone_targets, setZone_duck]
  split
  · rename_i hy
    obtain ⟨hc, hm, hd⟩ := hr hy
    rw [h, hy]
    exact (duckTarget_congr hc hm hd _).symm
  · exact h

theorem sdvAt_setZone {y : Zone} (h : SdvAt s y)
    (hr : y = z → r.boost = sdvBoost r.sdv s.speed.effective ∧ r.band = sdvBand r.sdv s.speed.effective) :
    SdvAt (setZone z r s) y := by
  unfold SdvAt at h ⊢
  rw [setZone_get, setZone_speed]
  split
  · rename_i hy
    exact hr hy
  · exact h

theorem requestedAt_setZone {y : Zone} (h : RequestedAt s y)
    (hr : y = z → r.requestedPage = evalRequested r) : RequestedAt (setZone z r s) y := by
  unfold RequestedAt at h ⊢
  rw [setZone_get]
  split
  · rename_i hy
    exact hr hy
  · exact h

theorem inZone_true {z : Zone} {c : Chan} (h : s.channels[c].zone = z) : inZone s z c = true := by
  simpa [inZone] using h

theorem not_of_inZone {z : Zone} {c : Chan} {q : Prop} (h : ¬ inZone s z c = true) : s.channels[c].zone = z → q :=
  fun e => absurd (inZone_true e) h

end

/-! ### A new channel record -/

theorem setRecord_at (c d : Chan) (r : ChannelRecord) : (setRecord c r s).channels[d] = if d = c then r else s.channels[d] := by
  simp [Vector.getElem_set, Fin.ext_iff, eq_comm]

theorem userAt_setRecord {c d : Chan} {r : ChannelRecord} (h : UserAt s d) (hd : d ≠ c) : UserAt (setRecord c r s) d := by
  unfold UserAt at h ⊢
  rw [setRecord_at, if_neg hd]
  exact h

theorem speedAt_setRecord {c d : Chan} {r : ChannelRecord} (h : SpeedAt s d)
    (hr : d = c → r.zone = s.channels[c].zone ∧ r.weight = s.channels[c].weight) : SpeedAt (setRecord c r s) d := by
  unfold SpeedAt at h ⊢
  rw [setRecord_at]
  split
  · rename_i hd
    obtain ⟨hz, hw⟩ := hr hd
    subst hd
    rw [hz]
    have hb (z : ZoneRecord) : weightedBoost z s.channels[d] = weightedBoost z r := by
      rw [weightedBoost, ← hw, ← weightedBoost]
    refine h.trans ?_
    dsimp only [speedTarget]
    rw [hb]
    rfl
  · exact h

theorem muteAt_setRecord {c d : Chan} {r : ChannelRecord} (h : MuteAt s d) (hr : d = c → r.zone = s.channels[c].zone) :
    MuteAt (setRecord c r s) d := by
  unfold MuteAt at h ⊢
  rw [setRecord_at]
  split
  · rename_i hd
    have hz := hr hd
    subst hd
    rw [hz]
    exact h
  · exact h

theorem only_true_or (c d : Chan) {q : Prop} (h : d ≠ c → q) : only c d = true ∨ q := by
  by_cases hd : d = c
  · exact .inl (by simp [only, hd])
  · exact .inr (h hd)

/-! ### The acts -/

theorem PlanInv.storeRecord (h : PlanInv s) (c : Chan) (r : ChannelRecord) : PlanInv (storeRecord c r s) := by
  obtain ⟨hu, hs, hm, hd, hz, hr⟩ := planInv_iff.mp h
  unfold Machine.storeRecord
  refine planInv_iff.mpr ⟨fun d => ?_, fun d => ?_, fun d => ?_, fun y => ?_, fun y => ?_, fun y => ?_⟩
  · simp only [userAt_recomputeMute, userAt_recomputeSpeed, userAt_recomputeUser]
    exact only_true_or c d fun hd => userAt_setRecord (hu d) hd
  · simp only [speedAt_recomputeMute, speedAt_recomputeSpeed, speedAt_recomputeUser]
    exact only_true_or c d fun hd => speedAt_setRecord (hs d) fun e => absurd e hd
  · simp only [muteAt_recomputeMute, muteAt_recomputeSpeed, muteAt_recomputeUser]
    exact only_true_or c d fun hd => muteAt_setRecord (hm d) fun e => absurd e hd
  · simpa using (show DuckAt (setRecord c r s) y from hd y)
  · simpa using (show SdvAt (setRecord c r s) y from hz y)
  · simpa using (show RequestedAt (setRecord c r s) y from hr y)

/-- A new effective speed brings both zones' boosts, bands and pages and every speed target up to date (R110). -/
theorem planInv_takeEffective (hu : ∀ c, UserAt s c) (hm : ∀ c, MuteAt s c) (hd : ∀ z, DuckAt s z) :
    PlanInv (takeEffective s) := by
  dsimp only [takeEffective]
  have get (z : Zone) : (PerZone.mk (evalSdv s.speed.effective s.gain.zones.a)
      (evalSdv s.speed.effective s.gain.zones.b)).get z = evalSdv s.speed.effective (s.gain.zones.get z) := by
    cases z <;> rfl
  refine planInv_iff.mpr ⟨fun c => (userAt_reviewPages _ _ c).mpr ?_, fun c => (speedAt_reviewPages _ _ c).mpr ?_,
    fun c => (muteAt_reviewPages _ _ c).mpr ?_, fun y => (duckAt_reviewPages _ _ y).mpr ?_,
    fun y => (sdvAt_reviewPages _ _ y).mpr ?_, fun y => (requestedAt_reviewPages _ _ y).mpr ?_⟩
  · rw [userAt_recomputeSpeed]; unfold UserAt; rw [get]; exact hu c
  · rw [speedAt_recomputeSpeed]; exact .inl rfl
  · rw [muteAt_recomputeSpeed]; unfold MuteAt; rw [get]; exact hm c
  · rw [duckAt_recomputeSpeed]; unfold DuckAt; rw [get]; exact hd y
  · rw [sdvAt_recomputeSpeed]; unfold SdvAt; rw [get]; exact ⟨rfl, rfl⟩
  · cases y <;> exact .inl rfl

theorem PlanInv.speedEvent (h : PlanInv s) (r : SpeedTracker) : PlanInv (speedEvent r s) := by
  obtain ⟨hu, -, hm, hd, -, -⟩ := planInv_iff.mp h
  unfold Machine.speedEvent handEffective
  split
  · exact planInv_takeEffective (s := setSpeed r s) hu hm hd
  · rename_i he
    exact h.of_same ⟨rfl, rfl, rfl, not_not.mp he⟩

theorem PlanInv.loadRecord (h : PlanInv s) (c : Chan) (r : ChannelRecord) : PlanInv (loadRecord c r s) :=
  (h.storeRecord c r).of_same ⟨loadRecord_gain c r s, by simp, by simp, by simp⟩

theorem PlanInv.owned (h : PlanInv s) (ho : Owned s t) : PlanInv t := by
  obtain ⟨hu, hs, hm, hd, hz, hr⟩ := planInv_iff.mp h
  cases ho with
  | cabin cab =>
    refine planInv_iff.mpr ⟨fun c => ?_, fun c => ?_, fun c => ?_, fun y => ?_, fun y => ?_, fun y => ?_⟩
    · rw [userAt_recomputeUser]; exact .inl rfl
    · rw [speedAt_recomputeUser]; exact hs c
    · rw [muteAt_recomputeUser]; exact hm c
    · rw [duckAt_recomputeUser]; exact hd y
    · rw [sdvAt_recomputeUser]; exact hz y
    · rw [requestedAt_recomputeUser]; exact hr y
  | trim c v =>
    refine planInv_iff.mpr ⟨fun d => ?_, fun d => ?_, fun d => ?_, fun y => ?_, fun y => ?_, fun y => ?_⟩
    · rw [userAt_recomputeUser]; exact only_true_or c d fun hd => userAt_setRecord (hu d) hd
    · rw [speedAt_recomputeUser]; exact speedAt_setRecord (hs d) fun _ => ⟨rfl, rfl⟩
    · rw [muteAt_recomputeUser]; exact muteAt_setRecord (hm d) fun _ => rfl
    · rw [duckAt_recomputeUser]; exact hd y
    · rw [sdvAt_recomputeUser]; exact hz y
    · rw [requestedAt_recomputeUser]; exact hr y
  | mute c b =>
    refine planInv_iff.mpr ⟨fun d => ?_, fun d => ?_, fun d => ?_, fun y => ?_, fun y => ?_, fun y => ?_⟩
    · rw [userAt_recomputeMute]; exact hu d
    · rw [speedAt_recomputeMute]; exact hs d
    · rw [muteAt_recomputeMute]
      refine only_true_or c d fun hd => ?_
      have hn : c.val ≠ d.val := fun e => hd (Fin.ext e.symm)
      have := hm d
      simpa [MuteAt, Vector.getElem_set, hn] using this
    · rw [duckAt_recomputeMute]; exact hd y
    · rw [sdvAt_recomputeMute]; exact hz y
    · rw [requestedAt_recomputeMute]; exact hr y
  | volume z step curve =>
    refine planInv_iff.mpr ⟨fun d => ?_, fun d => ?_, fun d => ?_, fun y => ?_, fun y => ?_, fun y => ?_⟩
    · rw [userAt_recomputeSpeed, userAt_recomputeUser]
      exact or_iff_not_imp_left.mpr fun hn => userAt_setZone (hu d) (not_of_inZone hn)
    · rw [speedAt_recomputeSpeed, speedAt_recomputeUser]
      exact or_iff_not_imp_left.mpr fun hn => speedAt_setZone (hs d) (not_of_inZone hn)
    · rw [muteAt_recomputeSpeed, muteAt_recomputeUser]; exact muteAt_setZone (hm d) fun _ => rfl
    · rw [duckAt_recomputeSpeed, duckAt_recomputeUser]; exact duckAt_setZone (hd y) fun _ => ⟨rfl, rfl, rfl⟩
    · rw [sdvAt_recomputeSpeed, sdvAt_recomputeUser]; exact sdvAt_setZone (hz y) fun _ => hz z
    · rw [requestedAt_recomputeSpeed, requestedAt_recomputeUser]; exact requestedAt_setZone (hr y) fun _ => hr z
  | zoneMute z b =>
    refine planInv_iff.mpr ⟨fun d => ?_, fun d => ?_, fun d => ?_, fun y => ?_, fun y => ?_, fun y => ?_⟩
    · rw [userAt_recomputeMute]; exact userAt_setZone (hu d) fun _ => ⟨rfl, rfl⟩
    · rw [speedAt_recomputeMute]; exact speedAt_setZone (hs d) fun _ => ⟨rfl, rfl, rfl, rfl⟩
    · rw [muteAt_recomputeMute]
      exact or_iff_not_imp_left.mpr fun hn => muteAt_setZone (hm d) (not_of_inZone hn)
    · rw [duckAt_recomputeMute]; exact duckAt_setZone (hd y) fun _ => ⟨rfl, rfl, rfl⟩
    · rw [sdvAt_recomputeMute]; exact sdvAt_setZone (hz y) fun _ => hz z
    · rw [requestedAt_recomputeMute]; exact requestedAt_setZone (hr y) fun _ => hr z
  | duck z b =>
    refine planInv_iff.mpr ⟨fun d => ?_, fun d => ?_, fun d => ?_, fun y => ?_, fun y => ?_, fun y => ?_⟩
    · rw [userAt_recomputeDuck]; exact userAt_setZone (hu d) fun _ => ⟨rfl, rfl⟩
    · rw [speedAt_recomputeDuck]; exact speedAt_setZone (hs d) fun _ => ⟨rfl, rfl, rfl, rfl⟩
    · rw [muteAt_recomputeDuck]; exact muteAt_setZone (hm d) fun _ => rfl
    · rw [duckAt_recomputeDuck]
      exact or_iff_not_imp_left.mpr fun hn => duckAt_setZone (hd y) fun e => absurd e hn
    · rw [sdvAt_recomputeDuck]; exact sdvAt_setZone (hz y) fun _ => hz z
    · rw [requestedAt_recomputeDuck]; exact requestedAt_setZone (hr y) fun _ => hr z
  | options z o =>
    refine planInv_reviewPage z (fun d => ?_) (fun d => ?_) (fun d => ?_) (fun y => ?_) (fun y => ?_) (fun y hy => ?_)
    · rw [userAt_recomputeDuck, userAt_recomputeSpeed]; exact userAt_setZone (hu d) fun _ => ⟨rfl, rfl⟩
    · rw [speedAt_recomputeDuck, speedAt_recomputeSpeed]
      exact or_iff_not_imp_left.mpr fun hn => speedAt_setZone (hs d) (not_of_inZone hn)
    · rw [muteAt_recomputeDuck, muteAt_recomputeSpeed]; exact muteAt_setZone (hm d) fun _ => rfl
    · rw [duckAt_recomputeDuck, duckAt_recomputeSpeed]
      exact or_iff_not_imp_left.mpr fun hn => duckAt_setZone (hd y) fun e => absurd e hn
    · rw [sdvAt_recomputeDuck, sdvAt_recomputeSpeed]; exact sdvAt_setZone (hz y) fun _ => hz z
    · rw [requestedAt_recomputeDuck, requestedAt_recomputeSpeed]; exact requestedAt_setZone (hr y) fun e => absurd e hy
  | sdv z curve =>
    refine planInv_reviewPage z (fun d => ?_) (fun d => ?_) (fun d => ?_) (fun y => ?_) (fun y => ?_) (fun y hy => ?_)
    · rw [userAt_recomputeSpeed]; exact userAt_setZone (hu d) fun _ => ⟨rfl, rfl⟩
    · rw [speedAt_recomputeSpeed]
      exact or_iff_not_imp_left.mpr fun hn => speedAt_setZone (hs d) (not_of_inZone hn)
    · rw [muteAt_recomputeSpeed]; exact muteAt_setZone (hm d) fun _ => rfl
    · rw [duckAt_recomputeSpeed]; exact duckAt_setZone (hd y) fun _ => ⟨rfl, rfl, rfl⟩
    · rw [sdvAt_recomputeSpeed]; exact sdvAt_setZone (hz y) fun _ => ⟨rfl, rfl⟩
    · rw [requestedAt_recomputeSpeed]; exact requestedAt_setZone (hr y) fun e => absurd e hy
  | userPage z p =>
    refine planInv_reviewPage z (fun d => ?_) (fun d => ?_) (fun d => ?_) (fun y => ?_) (fun y => ?_) (fun y hy => ?_)
    · exact userAt_setZone (hu d) fun _ => ⟨rfl, rfl⟩
    · exact speedAt_setZone (hs d) fun _ => ⟨rfl, rfl, rfl, rfl⟩
    · exact muteAt_setZone (hm d) fun _ => rfl
    · exact duckAt_setZone (hd y) fun _ => ⟨rfl, rfl, rfl⟩
    · exact sdvAt_setZone (hz y) fun _ => hz z
    · exact requestedAt_setZone (hr y) fun e => absurd e hy
  | reading m => exact h.speedEvent _
  | policy => exact h.speedEvent _
  | record c r => exact h.loadRecord c r
  | nothing | pace | source | coeffs | program | kinds | polled | roll | metersRead => exact h.of_same ⟨rfl, rfl, rfl, rfl⟩

theorem planInv_blocksReset (pins a tw o q) : PlanInv (State.blocksReset pins a tw o q) := by
  have hz (z : Zone) : (State.blocksReset pins a tw o q).gain.zones.get z = ZoneRecord.reset := by cases z <;> rfl
  have hc (c : Chan) : (State.blocksReset pins a tw o q).channels[c] = ChannelRecord.reset := by
    simp [State.blocksReset]
  refine ⟨fun c => ?_, fun c => ?_, fun c => ?_, fun z => ?_, fun z => ?_, fun z => ?_, fun z => ?_⟩
  · rw [hc, hz]
    exact (show (Vector.replicate 24 (-768 : Int))[c] = userTarget GainPlanner.reset.cabin ZoneRecord.reset ChannelRecord.reset by
      simp only [Fin.getElem_fin, Vector.getElem_replicate]; decide +kernel)
  · rw [hc, hz]
    exact (show (Vector.replicate 24 (0 : Int))[c] = speedTarget ZoneRecord.reset ChannelRecord.reset by
      simp only [Fin.getElem_fin, Vector.getElem_replicate]; decide +kernel)
  · rw [hc, hz]
    exact (show (Vector.replicate 24 (-768 : Int))[c] = muteTarget (Vector.replicate 24 false)[c] ZoneRecord.reset by
      simp only [Fin.getElem_fin, Vector.getElem_replicate]; decide +kernel)
  · rw [hz]; cases z <;> exact (show (0 : Int) = duckTarget ZoneRecord.reset false by decide)
  · rw [hz]; exact (show (0 : Int) = sdvBoost resetSdvCurve 0 by decide)
  · rw [hz]; exact (show 0 = sdvBand resetSdvCurve 0 by decide)
  · rw [hz]; decide

/-- A sample of the DUCK pin that changes the level brings both duck targets up to date (R82). -/
theorem PlanInv.duckSample (h : PlanInv s) : PlanInv (takeDuckSample s) := by
  obtain ⟨hu, hs, hm, hd, hz, hr⟩ := planInv_iff.mp h
  dsimp only [takeDuckSample]
  split
  · refine PlanInv.of_same ?_ ⟨notify_gain _ _, notify_channels _ _, by rw [notify_duck], by rw [notify_speed]⟩
    refine planInv_iff.mpr ⟨fun d => ?_, fun d => ?_, fun d => ?_, fun y => ?_, fun y => ?_, fun y => ?_⟩
    · rw [userAt_recomputeDuck, userAt_recomputeDuck]; exact hu d
    · rw [speedAt_recomputeDuck, speedAt_recomputeDuck]; exact hs d
    · rw [muteAt_recomputeDuck, muteAt_recomputeDuck]; exact hm d
    · rw [duckAt_recomputeDuck, duckAt_recomputeDuck]
      cases y
      · exact .inr (.inl rfl)
      · exact .inl rfl
    · rw [sdvAt_recomputeDuck, sdvAt_recomputeDuck]; exact hz y
    · rw [requestedAt_recomputeDuck, requestedAt_recomputeDuck]; exact hr y
  · exact h.of_same ⟨rfl, rfl, rfl, rfl⟩

theorem keptPlan : Kept PlanInv where
  blocksReset := planInv_blocksReset
  pins _ _ h := h.of_same ⟨rfl, rfl, rfl, rfl⟩
  ringOut _ _ h := h.of_same ⟨rfl, rfl, rfl, rfl⟩
  pending _ _ h := h.of_same ⟨rfl, rfl, rfl, rfl⟩
  notify _ _ h := h.of_same ⟨by simp, by simp, by simp, by simp⟩
  assembler _ _ h := h.of_same ⟨rfl, rfl, rfl, rfl⟩
  sender _ _ h := h.of_same ⟨rfl, rfl, rfl, rfl⟩
  address _ _ _ h := h.of_same ⟨rfl, rfl, rfl, rfl⟩
  lock _ _ _ h := h.of_same ⟨rfl, rfl, rfl, rfl⟩
  command s z c h := h.owned (takeCommand_owned z s c)
  emptied _ h := h.of_same ⟨rfl, rfl, rfl, rfl⟩
  lost s h := h.of_same (.onlyPages (onlyPages_schedLockLoss.trans onlyPages_zeroAllChains))
  relocked s h := h.of_same ⟨rfl, rfl, rfl, rfl⟩
  audio _ _ _ h e _ := by subst e; exact h.of_same (by constructor <;> simp [audioAct, storeAudio])
  meters s view runs h := h.of_same (by constructor <;> simp [metersAct])
  fades s view step h := h.of_same (.onlyPages (onlyPages_fadesAct _ _))
  completes s i f h _ _ := h.of_same (.onlyPages ((onlyPages_completeFade _).trans (onlyPages_resettle _)))
  grants s i d rest h _ _ := h.of_same (.onlyPages ((onlyPages_grantHead _).trans (onlyPages_resettle _)))
  tick s l h := h.of_same ⟨rfl, rfl, rfl, rfl⟩
  setLaneCount _ _ _ h _ _ := h.of_same ⟨rfl, rfl, rfl, rfl⟩
  expiry s h := (h.speedEvent (Machine.expire s.speed)).of_same (by constructor <;> simp [expiry])
  countDown _ _ h _ := h.of_same ⟨rfl, rfl, rfl, rfl⟩
  duckSample s h := h.duckSample
  duckCount _ _ h _ _ := h.of_same ⟨rfl, rfl, rfl, rfl⟩

/-- Settles O52: the plan is kept up to date by every act the rows are made of. -/
theorem planKept : Obligations.PlanKept := fun _ _ h e => step_keeps keptPlan h e

end Sys2Proof.Machine
end

section
/-! The Page Scheduler's acts one by one: what each makes of the switch states, the slots and the queue, and the laws of
chapter 9 that it keeps (R128 to R137). -/

namespace Sys2Proof.Machine

variable {s t : State}

/-! ### Reading back one entry -/

theorem get_set {α : Type} {n : Nat} (v : Vector α n) (i j : Fin n) (x : α) :
    (v.set i x)[j] = if j = i then x else v[j] := by
  simp [Vector.getElem_set, Fin.ext_iff, eq_comm]

theorem setSwitch_at (c d : Chan) (w : Switch) :
    (setSwitch c w s).sched.switch[d] = if d = c then w else s.sched.switch[d] := get_set _ _ _ _

theorem setSlot_at (i j : FadeSlot) (f : Option Fade) :
    (setSlot i f s).sched.slots[j] = if j = i then f else s.sched.slots[j] := get_set _ _ _ _

theorem switch_congr {c d : Chan} (e : c = d) : s.sched.switch[c] = s.sched.switch[d] := by subst e; rfl

/-! ### The laws that every act keeps -/

/-- The laws of `SchedInv` that hold between any two acts of an event: not the full slots, a fade may have reached its
length, and a channel may be disabled before it is brought to rest. -/
structure SchedLaws (s : State) : Prop where
  fading : ∀ c : Chan, ∀ i ∈ (s.sched.switch[c]).slot, (s.sched.slots[i]).map Fade.channel = some c
  occupied : ∀ i : FadeSlot, ∀ f ∈ s.sched.slots[i], s.sched.switch[f.channel] = .fading f.old i
  pages : ∀ i : FadeSlot, ∀ f ∈ s.sched.slots[i], f.target ≠ f.old ∧ f.next ≠ some f.target
  lengths : ∀ i : FadeSlot, ∀ f ∈ s.sched.slots[i], 256 ≤ f.length ∧ f.length ≤ 8192
  waiting : ∀ c : Chan, ∀ q ∈ (s.sched.switch[c]).waitingFor, q ≠ activePage s.sched.switch[c]
  once : s.sched.queue.Nodup
  queued : ∀ c : Chan, c ∈ s.sched.queue ↔ (s.sched.switch[c]).waitingFor.isSome = true
  exponent : ∀ z : Zone, 8 ≤ (s.gain.zones.get z).exponent ∧ (s.gain.zones.get z).exponent ≤ 13

/-- While a channel waits, all eight slots are occupied (R132). -/
def FullWhileWaiting (s : State) : Prop := s.sched.queue ≠ [] → ∀ i : FadeSlot, (s.sched.slots[i]).isSome = true

/-- Channel `c` is STEADY. -/
def Rests (s : State) (c : Chan) : Prop := (s.sched.switch[c]).steadyOn.isSome = true

theorem schedInv_iff : SchedInv s ↔ SchedLaws s ∧ FullWhileWaiting s ∧ (∀ i, reachedEnd s i = false) ∧
    ∀ c : Chan, s.channels[c].out = none → Rests s c := by
  have reached (i : FadeSlot) : reachedEnd s i = false ↔ ∀ f ∈ s.sched.slots[i], f.k < f.length := by
    cases hf : s.sched.slots[i] <;> simp_all [reachedEnd]
  constructor
  · rintro ⟨h1, h2, h3, h4, h5, h6, h7, h8, h9, h10⟩
    exact ⟨⟨h1, h2, h3, fun i f hf => (h4 i f hf).2, h5, h6, h7, h10⟩, h8,
      fun i => (reached i).mpr fun f hf => (h4 i f hf).1, h9⟩
  · rintro ⟨⟨h1, h2, h3, h4, h5, h6, h7, h10⟩, h8, hr, h9⟩
    exact ⟨h1, h2, h3, fun i f hf => ⟨(reached i).mp (hr i) f hf, h4 i f hf⟩, h5, h6, h7, h8, h9, h10⟩

/-- A channel that a law finds FADING stands in its slot, from its active page. -/
theorem SchedLaws.fade_of (h : SchedLaws s) {c : Chan} {p : Page} {i : FadeSlot}
    (hc : s.sched.switch[c] = .fading p i) : ∃ f, s.sched.slots[i] = some f ∧ f.channel = c ∧ f.old = p := by
  have hi := h.fading c i (by rw [hc]; rfl)
  obtain ⟨f, hf, hfc⟩ := Option.map_eq_some_iff.mp hi
  subst hfc
  have ho := h.occupied i f hf
  rw [hc] at ho
  cases ho
  exact ⟨f, hf, rfl, rfl⟩

/-- The record after an act that gives channel `c` the switch state `w` and slot contents and queue as stated. -/
structure Moved (s : State) (c : Chan) (w : Switch) (slots : Vector (Option Fade) 8) (queue : List Chan) (t : State) :
    Prop where
  switch : t.sched.switch = s.sched.switch.set c w
  slots : t.sched.slots = slots
  queue : t.sched.queue = queue
  channels : t.channels = s.channels
  zones : t.gain.zones = s.gain.zones

theorem Moved.at {c w slots queue} (m : Moved s c w slots queue t) (d : Chan) :
    t.sched.switch[d] = if d = c then w else s.sched.switch[d] := by rw [m.switch, get_set]

/-- The fade a start puts into its slot (R134). -/
def freshFade (s : State) (c : Chan) (p q : Page) : Fade :=
  { channel := c, old := p, target := q, k := 0, length := fadeLength s c, next := none }

theorem startFade_moved (c p q i) :
    Moved s c (.fading p i) (s.sched.slots.set i (some (freshFade s c p q))) s.sched.queue (startFade c p q i s) := by
  constructor <;> simp [startFade, eqStart, freshFade]

theorem fadeLength_range (he : ∀ z : Zone, 8 ≤ (s.gain.zones.get z).exponent ∧ (s.gain.zones.get z).exponent ≤ 13)
    (c : Chan) : 256 ≤ fadeLength s c ∧ fadeLength s c ≤ 8192 := by
  obtain ⟨h8, h13⟩ := he s.channels[c].zone
  exact ⟨Nat.pow_le_pow_right (n := 2) (by decide) h8, Nat.pow_le_pow_right (n := 2) (by decide) h13⟩

/-- A free slot is no FADING channel's. -/
theorem SchedLaws.slot_ne (h : SchedLaws s) {i : FadeSlot} (hi : s.sched.slots[i] = none) (d : Chan)  :
    (s.sched.switch[d]).slot ≠ some i := by
  intro hd
  have := h.fading d i hd
  rw [hi] at this
  cases this

/-- A channel not FADING holds no slot. -/
theorem SchedLaws.channel_ne (h : SchedLaws s) {c : Chan} (hc : (s.sched.switch[c]).slot = none) (j : FadeSlot)
    (f : Fade) (hf : s.sched.slots[j] = some f) : f.channel ≠ c := by
  rintro rfl
  rw [h.occupied j f hf] at hc
  cases hc

/-- A channel at rest or waiting starts a fade in a free slot, leaving the queue if it waited (R134). -/
theorem SchedLaws.start (h : SchedLaws s) {c : Chan} {q : Page} {i : FadeSlot} {queue : List Chan}
    (hc : (s.sched.switch[c]).slot = none) (hq : q ≠ activePage s.sched.switch[c]) (hi : s.sched.slots[i] = none)
    (hqueue : s.sched.queue = queue ∧ (s.sched.switch[c]).waitingFor = none ∨
      s.sched.queue = c :: queue)
    (m : Moved s c (.fading (activePage s.sched.switch[c]) i)
      (s.sched.slots.set i (some (freshFade s c (activePage s.sched.switch[c]) q))) queue t) :
    SchedLaws t := by
  obtain ⟨h256, h8192⟩ := fadeLength_range h.exponent c
  have slot_at (j : FadeSlot) : t.sched.slots[j] =
      if j = i then some (freshFade s c (activePage s.sched.switch[c]) q) else s.sched.slots[j] := by
    rw [m.slots, get_set]
  refine ⟨fun d j hj => ?_, fun j f hf => ?_, fun j f hf => ?_, fun j f hf => ?_, fun d r hr => ?_, ?_, fun d => ?_, m.zones ▸ h.exponent⟩
  · rw [m.at] at hj
    rw [slot_at]
    split at hj
    · cases hj; subst_vars; simp [freshFade]
    · have hji : j ≠ i := fun e => h.slot_ne hi d (e ▸ hj)
      rw [if_neg hji]
      exact h.fading d j hj
  · rw [slot_at] at hf
    rw [m.at]
    split at hf
    · cases hf; subst_vars; simp [freshFade]
    · rw [if_neg (h.channel_ne hc j f hf)]
      exact h.occupied j f hf
  · rw [slot_at] at hf
    split at hf
    · cases hf; exact ⟨hq, by simp [freshFade]⟩
    · exact h.pages j f hf
  · rw [slot_at] at hf
    split at hf
    · cases hf; exact ⟨h256, h8192⟩
    · exact h.lengths j f hf
  · rw [m.at] at hr ⊢
    split at hr
    · cases hr
    · rename_i hd; rw [if_neg hd]; exact h.waiting d r hr
  · rw [m.queue]
    rcases hqueue with ⟨e, -⟩ | e
    · exact e ▸ h.once
    · exact (List.nodup_cons.mp (e ▸ h.once)).2
  · have hmem := h.queued d
    rw [m.queue, m.at]
    rcases hqueue with ⟨e, hw⟩ | e
    · split
      · subst_vars; rw [hmem, hw]; simp [Switch.waitingFor]
      · rw [← e]; exact hmem
    · have hnd := List.nodup_cons.mp (e ▸ h.once)
      rw [e, List.mem_cons] at hmem
      split
      · subst_vars; simp [Switch.waitingFor, hnd.1]
      · rename_i hd; rw [← hmem]; simp [hd]

/-- A channel that holds no slot comes to rest on a page, leaving the queue if it waited (R132, R133, R139). -/
theorem SchedLaws.rest (h : SchedLaws s) {c : Chan} {q : Page}
    (hc : (s.sched.switch[c]).slot = none) (m : Moved s c (.steady q) s.sched.slots (s.sched.queue.erase c) t) : SchedLaws t := by
  refine ⟨fun d j hj => ?_, fun j f hf => ?_, by rw [m.slots]; exact h.pages, by rw [m.slots]; exact h.lengths,
    fun d r hr => ?_, ?_, fun d => ?_, m.zones ▸ h.exponent⟩
  · rw [m.at] at hj
    rw [m.slots]
    split at hj
    · cases hj
    · exact h.fading d j hj
  · rw [m.slots] at hf
    rw [m.at, if_neg (h.channel_ne hc j f hf)]
    exact h.occupied j f hf
  · rw [m.at] at hr ⊢
    split at hr
    · cases hr
    · rename_i hd; rw [if_neg hd]; exact h.waiting d r hr
  · rw [m.queue]; exact h.once.erase c
  · rw [m.queue, m.at, h.once.mem_erase_iff, h.queued d]
    split
    · subst_vars; simp [Switch.waitingFor]
    · rename_i hd; simp [hd]

/-- A channel at rest joins the queue at the tail, waiting for a page (R132, R136 step 2). -/
theorem SchedLaws.join (h : SchedLaws s) {c : Chan} {p q : Page} (hc : s.sched.switch[c] = .steady p)
    (hq : q ≠ p)
    (m : Moved s c (.queued p q) s.sched.slots (s.sched.queue ++ [c]) t) : SchedLaws t := by
  have hnot : c ∉ s.sched.queue := by rw [h.queued, hc]; simp [Switch.waitingFor]
  refine ⟨fun d j hj => ?_, fun j f hf => ?_, by rw [m.slots]; exact h.pages, by rw [m.slots]; exact h.lengths,
    fun d r hr => ?_, ?_, fun d => ?_, m.zones ▸ h.exponent⟩
  · rw [m.at] at hj
    rw [m.slots]
    split at hj
    · cases hj
    · exact h.fading d j hj
  · rw [m.slots] at hf
    rw [m.at, if_neg (h.channel_ne (by rw [hc]; rfl) j f hf)]
    exact h.occupied j f hf
  · rw [m.at] at hr ⊢
    split at hr
    · rename_i hd; rw [if_pos hd]; cases hr; exact hq
    · rename_i hd; rw [if_neg hd]; exact h.waiting d r hr
  · rw [m.queue]
    exact List.nodup_append.mpr ⟨h.once, List.nodup_singleton c, by grind⟩
  · rw [m.queue, m.at, List.mem_append, h.queued d]
    split
    · subst_vars; simp [Switch.waitingFor]
    · rename_i hd; simp [hd]

/-- A waiting channel waits for another page, keeping its place (R132). -/
theorem SchedLaws.wait (h : SchedLaws s) {c : Chan} {p q r : Page} (hc : s.sched.switch[c] = .queued p q)
    (hr : r ≠ p) (m : Moved s c (.queued p r) s.sched.slots s.sched.queue t) : SchedLaws t := by
  refine ⟨fun d j hj => ?_, fun j f hf => ?_, by rw [m.slots]; exact h.pages, by rw [m.slots]; exact h.lengths,
    fun d x hx => ?_, m.queue ▸ h.once, fun d => ?_, m.zones ▸ h.exponent⟩
  · rw [m.at] at hj
    rw [m.slots]
    split at hj
    · cases hj
    · exact h.fading d j hj
  · rw [m.slots] at hf
    rw [m.at, if_neg (h.channel_ne (by rw [hc]; rfl) j f hf)]
    exact h.occupied j f hf
  · rw [m.at] at hx ⊢
    split at hx
    · rename_i hd; rw [if_pos hd]; cases hx; exact hr
    · rename_i hd; rw [if_neg hd]; exact h.waiting d x hx
  · rw [m.queue, m.at, h.queued d]
    split
    · subst_vars; rw [hc]; simp [Switch.waitingFor]
    · rfl

/-- A fade takes another next target (R132). -/
theorem SchedLaws.redirect (h : SchedLaws s) {i : FadeSlot} {f : Fade} {n : Option Page}
    (hf : s.sched.slots[i] = some f) (hn : n ≠ some f.target) (hs : t.sched.switch = s.sched.switch)
    (hsl : t.sched.slots = s.sched.slots.set i (some { f with next := n })) (hqu : t.sched.queue = s.sched.queue)
    (hz : t.gain.zones = s.gain.zones) : SchedLaws t := by
  have slot_at (j : FadeSlot) : t.sched.slots[j] = if j = i then some { f with next := n } else s.sched.slots[j] := by
    rw [hsl, get_set]
  refine ⟨fun d j hj => ?_, fun j g hg => ?_, fun j g hg => ?_, fun j g hg => ?_, by rw [hs]; exact h.waiting,
    hqu ▸ h.once, by rw [hs, hqu]; exact h.queued, hz ▸ h.exponent⟩
  · rw [hs] at hj
    rw [slot_at]
    have := h.fading d j hj
    split
    · rename_i e; subst e; rw [hf] at this; exact this
    · exact this
  · rw [slot_at] at hg
    rw [hs]
    split at hg
    · rename_i e; cases hg; subst e; exact h.occupied j f hf
    · exact h.occupied j g hg
  · rw [slot_at] at hg
    split at hg
    · cases hg; exact ⟨(h.pages i f hf).1, hn⟩
    · exact h.pages j g hg
  · rw [slot_at] at hg
    split at hg
    · rename_i e; cases hg; subst e; exact h.lengths j f hf
    · exact h.lengths j g hg

/-- A fade ends on its target page and frees its slot (R136 step 1). -/
theorem SchedLaws.carry (h : SchedLaws s) {i : FadeSlot} {f : Fade} (hf : s.sched.slots[i] = some f)
    (m : Moved s f.channel (.steady f.target) (s.sched.slots.set i none) s.sched.queue t) : SchedLaws t := by
  have hfc := h.occupied i f hf
  have slot_at (j : FadeSlot) : t.sched.slots[j] = if j = i then none else s.sched.slots[j] := by rw [m.slots, get_set]
  have other {j : FadeSlot} {g : Fade} (hg : t.sched.slots[j] = some g) : j ≠ i ∧ s.sched.slots[j] = some g := by
    rw [slot_at] at hg
    split at hg
    · cases hg
    · exact ⟨by assumption, hg⟩
  have channel_ne {j : FadeSlot} {g : Fade} (hj : j ≠ i) (hg : s.sched.slots[j] = some g) : g.channel ≠ f.channel := by
    intro e
    exact hj (Switch.fading.inj ((h.occupied j g hg).symm.trans ((switch_congr e).trans hfc))).2
  refine ⟨fun d j hj => ?_, fun j g hg => ?_, fun j g hg => h.pages j g (other hg).2, fun j g hg => ?_,
    fun d x hx => ?_, m.queue ▸ h.once, fun d => ?_, m.zones ▸ h.exponent⟩
  · rw [m.at] at hj
    split at hj
    · cases hj
    · rename_i hd
      have hchan := h.fading d j hj
      rw [slot_at, if_neg]
      · exact hchan
      · intro e
        subst e
        rw [hf] at hchan
        exact hd (Option.some.inj hchan).symm
  · obtain ⟨hj, hg⟩ := other hg
    rw [m.at, if_neg (channel_ne hj hg)]
    exact h.occupied j g hg
  · obtain ⟨hj, hg⟩ := other hg
    exact h.lengths j g hg
  · rw [m.at] at hx ⊢
    split at hx
    · cases hx
    · rename_i hd; rw [if_neg hd]; exact h.waiting d x hx
  · rw [m.queue, m.at, h.queued d]
    split
    · subst_vars; rw [hfc]; rfl
    · rfl

end Sys2Proof.Machine
end

section
/-! The Page Scheduler's events as sequences of acts (R132 to R142), and what every act keeps. -/

namespace Sys2Proof.Machine

variable {s t : State}

/-- One act of the Page Scheduler, where it is due. -/
inductive SchedAct (s : State) : State → Prop
  | start (c : Chan) (q : Page) (i : FadeSlot) (queue : List Chan) (rest : (s.sched.switch[c]).slot = none)
      (new : q ≠ activePage s.sched.switch[c]) (free : s.sched.slots[i] = none) (running : s.channels[c].out ≠ none)
      (left : s.sched.queue = queue ∧ (s.sched.switch[c]).waitingFor = none ∨ s.sched.queue = c :: queue) :
      SchedAct s (startFade c (activePage s.sched.switch[c]) q i (setQueue queue s))
  | switch (c : Chan) (q : Page) (rest : (s.sched.switch[c]).slot = none) :
      SchedAct s (instantSwitch c (activePage s.sched.switch[c]) q (leaveQueue c s))
  | stay (c : Chan) (rest : (s.sched.switch[c]).slot = none) :
      SchedAct s (leaveQueue c (setSwitch c (.steady (activePage s.sched.switch[c])) s))
  | join (c : Chan) (p q : Page) (steady : s.sched.switch[c] = .steady p) (new : q ≠ p)
      (running : s.channels[c].out ≠ none) : SchedAct s (joinQueue c (setSwitch c (.queued p q) s))
  | wait (c : Chan) (p q r : Page) (waits : s.sched.switch[c] = .queued p q) (new : r ≠ p) :
      SchedAct s (setSwitch c (.queued p r) s)
  | redirect (i : FadeSlot) (f : Fade) (n : Option Page) (holds : s.sched.slots[i] = some f) (new : n ≠ some f.target) :
      SchedAct s (setSlot i (some { f with next := n }) s)
  | carry (i : FadeSlot) (f : Fade) (holds : s.sched.slots[i] = some f) : SchedAct s (carryOver f i s)

/-! ### What each act moves -/

theorem eqComplete_only (c : Chan) (p : Page) : (eqComplete c p s).sched = s.sched ∧
    (eqComplete c p s).channels = s.channels ∧ (eqComplete c p s).gain = s.gain := by
  dsimp only [eqComplete]
  split <;> simp [subLive, setTargetChain, setActiveChain]

theorem start_moved (c : Chan) (p q : Page) (i : FadeSlot) (queue : List Chan) :
    Moved s c (.fading p i) (s.sched.slots.set i (some (freshFade s c p q))) queue
      (startFade c p q i (setQueue queue s)) := by
  have same := startFade_moved (s := setQueue queue s) c p q i
  exact ⟨same.switch, same.slots, same.queue, same.channels, same.zones⟩

theorem switch_moved (c : Chan) (p q : Page) :
    Moved s c (.steady q) s.sched.slots (s.sched.queue.erase c) (instantSwitch c p q (leaveQueue c s)) := by
  constructor <;> simp [instantSwitch, eqSwitch, setActiveChain, addLive, subLive, setSwitch, leaveQueue, setQueue]

theorem stay_moved (c : Chan) (p : Page) : Moved s c (.steady p) s.sched.slots (s.sched.queue.erase c)
    (leaveQueue c (setSwitch c (.steady p) s)) := by
  constructor <;> simp [setSwitch, leaveQueue, setQueue]

theorem join_moved (c : Chan) (p q : Page) : Moved s c (.queued p q) s.sched.slots (s.sched.queue ++ [c])
    (joinQueue c (setSwitch c (.queued p q) s)) := by
  constructor <;> rfl

theorem wait_moved (c : Chan) (p q : Page) : Moved s c (.queued p q) s.sched.slots s.sched.queue
    (setSwitch c (.queued p q) s) := by
  constructor <;> rfl

theorem carry_moved (f : Fade) (i : FadeSlot) :
    Moved s f.channel (.steady f.target) (s.sched.slots.set i none) s.sched.queue (carryOver f i s) := by
  obtain ⟨hs, hc, hg⟩ := eqComplete_only (s := s) f.channel f.old
  constructor <;> simp [carryOver, setSlot, setSwitch, hs, hc, hg]

/-! ### What every act keeps -/

theorem SchedAct.laws (a : SchedAct s t) (h : SchedLaws s) : SchedLaws t := by
  cases a with
  | start c q i queue rest new free running left => exact h.start rest new free left (start_moved ..)
  | switch c q rest => exact h.rest rest (switch_moved ..)
  | stay c rest => exact h.rest rest (stay_moved ..)
  | join c p q steady new running => exact h.join steady new (join_moved ..)
  | wait c p q r waits new => exact h.wait waits new (wait_moved ..)
  | redirect i f n holds new => exact h.redirect holds new rfl rfl rfl rfl
  | carry i f holds => exact h.carry holds (carry_moved ..)

/-- No fade reaches its length in an act. -/
theorem SchedAct.reached (a : SchedAct s t) (h : SchedLaws s) (j : FadeSlot) (hj : reachedEnd s j = false) :
    reachedEnd t j = false := by
  have keeps {i : FadeSlot} {x : Option Fade} (ht : t.sched.slots = s.sched.slots.set i x)
      (hx : j = i → x.any (fun f => f.length ≤ f.k) = false) : reachedEnd t j = false := by
    unfold reachedEnd
    rw [ht, get_set]
    split
    · exact hx ‹_›
    · exact hj
  have same (ht : t.sched.slots = s.sched.slots) : reachedEnd t j = false := by unfold reachedEnd; rw [ht]; exact hj
  cases a with
  | start c q i queue rest new free running left =>
    refine keeps (start_moved ..).slots fun _ => ?_
    have := (fadeLength_range h.exponent c).1
    simp [freshFade]; omega
  | switch c q rest => exact same (switch_moved ..).slots
  | stay c rest => exact same (stay_moved ..).slots
  | join c p q steady new running => exact same (join_moved ..).slots
  | wait c p q r waits new => exact same (wait_moved ..).slots
  | redirect i f n holds new =>
    refine keeps rfl fun e => ?_
    subst e
    simpa [reachedEnd, holds] using hj
  | carry i f holds => exact keeps (carry_moved ..).slots fun _ => rfl

theorem Moved.rests {c w slots queue} (m : Moved s c w slots queue t) {d : Chan} (hd : Rests s d)
    (hw : d = c → w.steadyOn.isSome = true) : Rests t d := by
  unfold Rests
  rw [m.at]
  split
  · exact hw ‹_›
  · exact hd

/-- A disabled channel that is STEADY stays so. -/
theorem SchedAct.rests (a : SchedAct s t) (d : Chan) (ho : s.channels[d].out = none) (hd : Rests s d) : Rests t d := by
  cases a with
  | start c q i queue rest new free running left =>
    exact (start_moved ..).rests hd fun e => absurd (e ▸ ho) running
  | switch c q rest => exact (switch_moved ..).rests hd fun _ => rfl
  | stay c rest => exact (stay_moved ..).rests hd fun _ => rfl
  | join c p q steady new running => exact (join_moved ..).rests hd fun e => absurd (e ▸ ho) running
  | wait c p q r waits new =>
    refine (wait_moved ..).rests hd fun e => ?_
    subst e
    simp [Rests, waits, Switch.steadyOn] at hd
  | redirect i f n holds new => exact hd
  | carry i f holds => exact (carry_moved ..).rests hd fun _ => rfl

theorem SchedAct.onlyPages (a : SchedAct s t) : OnlyPagesMove s t := by
  cases a with
  | start => exact (onlyPages_setQueue _).trans (onlyPages_startFade _ _ _ _)
  | switch => exact (onlyPages_leaveQueue _).trans (onlyPages_instantSwitch _ _ _)
  | stay => exact (onlyPages_setSwitch _ _).trans (onlyPages_leaveQueue _)
  | join => exact (onlyPages_setSwitch _ _).trans (onlyPages_joinQueue _)
  | wait => exact onlyPages_setSwitch _ _
  | redirect => exact onlyPages_setSlot _ _
  | carry => exact onlyPages_carryOver _ _

/-! ### Sequences of acts -/

/-- Any number of acts. -/
abbrev SchedActs : State → State → Prop := Relation.ReflTransGen SchedAct

theorem SchedAct.acts (a : SchedAct s t) : SchedActs s t := .single a

theorem SchedActs.onlyPages (a : SchedActs s t) : OnlyPagesMove s t := by
  induction a with
  | refl => exact .refl _
  | tail _ a ih => exact ih.trans a.onlyPages

theorem SchedActs.laws (a : SchedActs s t) (h : SchedLaws s) : SchedLaws t := by
  induction a with
  | refl => exact h
  | tail _ a ih => exact a.laws ih

theorem SchedActs.reached (a : SchedActs s t) (h : SchedLaws s) (j : FadeSlot) (hj : reachedEnd s j = false) :
    reachedEnd t j = false := by
  induction a with
  | refl => exact hj
  | tail b a ih => exact a.reached (SchedActs.laws b h) j ih

/-- Disabled channels that are STEADY stay so. -/
theorem SchedActs.rests (a : SchedActs s t) (d : Chan) (ho : s.channels[d].out = none) (hd : Rests s d) :
    t.channels = s.channels ∧ Rests t d := by
  induction a with
  | refl => exact ⟨rfl, hd⟩
  | tail _ a ih =>
    have hch := a.onlyPages.channels
    exact ⟨hch.trans ih.1, a.rests d (by rw [ih.1]; exact ho) ih.2⟩

/-! ### The events as acts -/

theorem freeSlot_eq_some {i : FadeSlot} : freeSlot s = some i ↔ s.sched.slots[i] = none ∧ ∀ j < i, s.sched.slots[j] ≠ none := by
  have lt := List.pairwise_lt_finRange 8
  unfold freeSlot
  rw [List.find?_eq_some_iff_append]
  constructor
  · rintro ⟨hi, as, bs, e, hall⟩
    rw [e, List.pairwise_append, List.pairwise_cons] at lt
    obtain ⟨-, ⟨hbs, -⟩, -⟩ := lt
    refine ⟨by simpa using hi, fun j hj => ?_⟩
    have hmem : j ∈ as ++ i :: bs := e ▸ List.mem_finRange j
    rcases List.mem_append.mp hmem with h | h
    · simpa [Option.isSome_iff_ne_none] using hall j h
    · rcases List.mem_cons.mp h with rfl | h
      · exact absurd hj (lt_irrefl _)
      · exact absurd (hbs j h) (lt_asymm hj)
  · rintro ⟨hi, hlt⟩
    obtain ⟨as, bs, e⟩ := List.append_of_mem (List.mem_finRange i)
    rw [e, List.pairwise_append] at lt
    obtain ⟨-, -, has⟩ := lt
    exact ⟨by simpa using hi, as, bs, e, fun j hj => by simpa [Option.isSome_iff_ne_none] using hlt j (has j hj i (by simp))⟩

theorem freeSlot_eq_none : freeSlot s = none ↔ ∀ i : FadeSlot, s.sched.slots[i] ≠ none := by
  simp [freeSlot, List.find?_eq_none]

theorem SchedLaws.leaveQueue_eq (h : SchedLaws s) {c : Chan} (hw : (s.sched.switch[c]).waitingFor = none) :
    leaveQueue c s = s := by
  have : c ∉ s.sched.queue := by rw [h.queued, hw]; simp
  unfold leaveQueue setQueue
  rw [List.erase_of_not_mem this]

theorem SchedLaws.switch_acts (h : SchedLaws s) {c : Chan} {p : Page} (hc : s.sched.switch[c] = .steady p) (r : Page) :
    SchedAct s (instantSwitch c p r s) := by
  have := SchedAct.switch (s := s) c r (by rw [hc]; rfl)
  rw [h.leaveQueue_eq (by rw [hc]; rfl), hc] at this
  exact this

theorem SchedLaws.requestDisabled_acts (h : SchedLaws s) (c : Chan) (r : Page) : SchedActs s (requestDisabled c r s) := by
  unfold requestDisabled
  split
  · split
    · exact .refl
    · exact (h.switch_acts ‹_› r).acts
  · exact .refl
  · exact .refl

theorem requestEnabled_acts {c : Chan} (hout : s.channels[c].out ≠ none) (r : Page) :
    SchedActs s (requestEnabled c r s) := by
  unfold requestEnabled
  split
  case h_1 p hc =>
    split
    · exact .refl
    · split
      case h_1 i hi =>
        have := SchedAct.start (s := s) c r i s.sched.queue (by rw [hc]; rfl) (by rw [hc]; assumption)
          (freeSlot_eq_some.mp hi).1 hout (.inl ⟨rfl, by rw [hc]; rfl⟩)
        rw [hc] at this
        exact this.acts
      case h_2 hi => exact (SchedAct.join c p r hc ‹_› hout).acts
  case h_2 p q hc =>
    split
    · have := SchedAct.stay (s := s) c (by rw [hc]; rfl)
      rw [hc] at this
      exact this.acts
    · exact (SchedAct.wait c p q r hc ‹_›).acts
  case h_3 p i hc =>
    split
    case h_1 f hf =>
      refine (SchedAct.redirect i f _ hf ?_).acts
      split
      · simp
      · simpa using ‹_›
    case h_2 => exact .refl

theorem SchedLaws.pageRequest_acts (h : SchedLaws s) (c : Chan) (r : Page) : SchedActs s (pageRequest c r s) := by
  unfold pageRequest enabled
  split
  · exact requestEnabled_acts (Option.isSome_iff_ne_none.mp ‹_›) r
  · exact h.requestDisabled_acts c r

/-- The head of the queue waits (R130). -/
theorem SchedLaws.head_waits (h : SchedLaws s) {d : Chan} {rest : List Chan} (hq : s.sched.queue = d :: rest) :
    ∃ p q, s.sched.switch[d] = .queued p q := by
  have := (h.queued d).mp (by rw [hq]; simp)
  cases hd : s.sched.switch[d] with
  | queued p q => exact ⟨p, q, rfl⟩
  | steady p => rw [hd] at this; cases this
  | fading p i => rw [hd] at this; cases this

theorem SchedLaws.grantHead_acts (h : SchedLaws s) {i : FadeSlot} (hi : s.sched.slots[i] = none)
    (hrun : ∀ d ∈ s.sched.queue, s.channels[d].out ≠ none) : SchedActs s (grantHead i s) := by
  unfold grantHead
  split
  case h_1 => exact .refl
  case h_2 d rest hq =>
    obtain ⟨p, q, hd⟩ := h.head_waits hq
    have := SchedAct.start (s := s) d q i rest (by rw [hd]; rfl) (h.waiting d q (by rw [hd]; rfl)) hi
      (hrun d (by rw [hq]; simp)) (.inr hq)
    rw [hd] at this
    rw [hd]
    exact this.acts

theorem carryOver_slot (f : Fade) (i : FadeSlot) : (carryOver f i s).sched.slots[i] = none := by
  rw [(carry_moved f i).slots, get_set, if_pos rfl]

theorem carryOver_switch (f : Fade) (i : FadeSlot) : (carryOver f i s).sched.switch[f.channel] = .steady f.target := by
  rw [(carry_moved f i).at, if_pos rfl]

theorem requeue_acts {f : Fade} (hc : s.sched.switch[f.channel] = .steady f.target)
    (hn : f.next ≠ some f.target) (hout : s.channels[f.channel].out ≠ none) : SchedActs s (requeue f s) := by
  unfold requeue
  split
  · exact .refl
  · exact (SchedAct.join _ _ _ hc (by simp_all) hout).acts

theorem requeue_only (f : Fade) : (requeue f s).sched.slots = s.sched.slots ∧ (requeue f s).channels = s.channels := by
  unfold requeue
  split
  · exact ⟨rfl, rfl⟩
  · exact ⟨(join_moved ..).slots, (join_moved ..).channels⟩

/-- Disabled channels rest, so every channel that waits or fades is enabled. -/
theorem SchedLaws.running (h : SchedLaws s) (hd : ∀ c : Chan, s.channels[c].out = none → Rests s c) {d : Chan}
    (hq : d ∈ s.sched.queue) : s.channels[d].out ≠ none := by
  intro ho
  have hr := hd d ho
  have hw := (h.queued d).mp hq
  unfold Rests at hr
  cases hs : s.sched.switch[d] <;> rw [hs] at hr hw <;> cases hr
  cases hw

theorem SchedLaws.completeFade_acts (h : SchedLaws s) (hd : ∀ c : Chan, s.channels[c].out = none → Rests s c)
    (i : FadeSlot) : SchedActs s (completeFade i s) := by
  unfold completeFade
  split
  case h_1 f hf =>
    have hout : s.channels[f.channel].out ≠ none := fun ho => by
      have := hd _ ho
      rw [Rests, h.occupied i f hf] at this
      cases this
    have a1 : SchedActs s (carryOver f i s) := (SchedAct.carry i f hf).acts
    have l1 := SchedActs.laws a1 h
    have a2 : SchedActs s (requeue f (carryOver f i s)) :=
      a1.trans (requeue_acts (carryOver_switch f i) (h.pages i f hf).2
        (by rw [(carry_moved f i).channels]; exact hout))
    have l2 := SchedActs.laws a2 h
    refine a2.trans (l2.grantHead_acts ?_ fun d hq => ?_)
    · rw [(requeue_only f).1]; exact carryOver_slot f i
    · exact l2.running (fun c ho => (SchedActs.rests a2 c (by
        rwa [(requeue_only f).2, (carry_moved f i).channels] at ho) (hd c (by
        rwa [(requeue_only f).2, (carry_moved f i).channels] at ho))).2) hq
  case h_2 => exact .refl

theorem SchedLaws.endFade_acts (h : SchedLaws s) {f : Fade} {i : FadeSlot} (hf : s.sched.slots[i] = some f) :
    SchedActs s (endFade f i s) := by
  have a : SchedAct s (carryOver f i s) := .carry i f hf
  dsimp only [endFade]
  split
  · exact a.acts
  · exact a.acts.tail ((a.laws h).switch_acts (carryOver_switch f i) _)

theorem SchedLaws.schedLoseChannel_acts (h : SchedLaws s) (c : Chan) : SchedActs s (schedLoseChannel s c) := by
  unfold schedLoseChannel
  split
  case h_1 => exact .refl
  case h_2 p q hc =>
    have := SchedAct.switch (s := s) c q (by rw [hc]; rfl)
    rw [hc] at this
    exact this.acts
  case h_3 p i hc =>
    split
    · exact h.endFade_acts ‹_›
    · exact .refl

end Sys2Proof.Machine
end

section
/-! The course of each channel: its switch state with the fade in its slot. Every event of the Page Scheduler changes the
course of the channel it is for, and of the channel it grants a slot to. -/

namespace Sys2Proof.Machine

variable {s t u : State}

/-- The switch state of a channel with the fade it is in (R128). -/
def course (s : State) (c : Chan) : Switch × Option Fade :=
  (s.sched.switch[c], (s.sched.switch[c]).slot.bind fun i => s.sched.slots[i])

theorem course_switch {c : Chan} (e : course t c = course s c) : t.sched.switch[c] = s.sched.switch[c] :=
  congrArg Prod.fst e

theorem targetPage_eq (c : Chan) : targetPage s c = (course s c).2.map Fade.target := rfl

theorem targetPage_congr {c : Chan} (e : course t c = course s c) : targetPage t c = targetPage s c := by
  rw [targetPage_eq, e, targetPage_eq]

/-- The page a course leads to (R144). -/
def wayOf : Switch × Option Fade → Page
  | (.steady p, _) => p
  | (.queued _ q, _) => q
  | (.fading p _, none) => p
  | (.fading _ _, some f) => f.next.getD f.target

theorem destination_eq (c : Chan) : destination s c = wayOf (course s c) := by
  unfold destination course
  cases s.sched.switch[c] with
  | steady p => rfl
  | queued p q => rfl
  | fading p i =>
    simp only [Switch.slot, Option.bind_some]
    cases s.sched.slots[i] <;> rfl

theorem destination_congr {c : Chan} (e : course t c = course s c) : destination t c = destination s c := by
  rw [destination_eq, e, ← destination_eq]

theorem destination_steady {c : Chan} {p : Page} (e : s.sched.switch[c] = .steady p) : destination s c = p := by
  unfold destination; rw [e]

/-- Every channel but `c` keeps its course. -/
def OthersOn (c : Chan) (s t : State) : Prop := ∀ d : Chan, d ≠ c → course t d = course s d

theorem OthersOn.refl (c : Chan) (s : State) : OthersOn c s s := fun _ _ => rfl

theorem OthersOn.trans {c : Chan} (h : OthersOn c s t) (g : OthersOn c t u) : OthersOn c s u :=
  fun d hd => (g d hd).trans (h d hd)

theorem course_of_same (hs : t.sched.switch = s.sched.switch) (hl : t.sched.slots = s.sched.slots) (d : Chan) :
    course t d = course s d := by unfold course; rw [hs, hl]

@[simp] theorem course_resettle (z : Zone) (c : Chan) : course (resettle z s) c = course s c := by
  unfold course resettle; simp

@[simp] theorem course_resettleZones (a b : Bool) (c : Chan) : course (resettleZones a b s) c = course s c := by
  cases a <;> cases b <;> simp [resettleZones]

/-! ### The courses after each act -/

theorem Moved.othersOn {c w slots queue} (m : Moved s c w slots queue t)
    (hs : ∀ d : Chan, d ≠ c → ∀ i : FadeSlot, (s.sched.switch[d]).slot = some i → slots[i] = s.sched.slots[i]) :
    OthersOn c s t := by
  intro d hd
  unfold course
  rw [m.at, if_neg hd, m.slots]
  cases hi : (s.sched.switch[d]).slot with
  | none => rfl
  | some i => simp only [Option.bind_some, hs d hd i hi]

theorem Moved.course_at {c w slots queue} (m : Moved s c w slots queue t) :
    course t c = (w, w.slot.bind fun i => slots[i]) := by
  unfold course
  rw [m.at, if_pos rfl, m.slots]

theorem SchedLaws.start_others (h : SchedLaws s) {c : Chan} {i : FadeSlot} (hi : s.sched.slots[i] = none) (p q queue) :
    OthersOn c s (startFade c p q i (setQueue queue s)) := by
  refine (start_moved ..).othersOn fun d _ j hj => ?_
  rw [get_set, if_neg]
  rintro rfl
  exact h.slot_ne hi d hj

theorem start_course (c : Chan) (p q : Page) (i : FadeSlot) (queue : List Chan) :
    course (startFade c p q i (setQueue queue s)) c = (.fading p i, some (freshFade s c p q)) := by
  rw [(start_moved ..).course_at]
  change (_, (s.sched.slots.set i (some (freshFade s c p q)))[i]) = _
  rw [get_set, if_pos rfl]

theorem SchedLaws.carry_others (h : SchedLaws s) {f : Fade} {i : FadeSlot} (hf : s.sched.slots[i] = some f) :
    OthersOn f.channel s (carryOver f i s) := by
  refine (carry_moved ..).othersOn fun d hd j hj => ?_
  rw [get_set, if_neg]
  rintro rfl
  have := h.fading d j hj
  rw [hf] at this
  exact hd (Option.some.inj this).symm

theorem SchedLaws.redirect_others (h : SchedLaws s) {f : Fade} {i : FadeSlot} (hf : s.sched.slots[i] = some f)
    (n : Option Page) : OthersOn f.channel s (setSlot i (some { f with next := n }) s) := by
  intro d hd
  unfold course
  change (s.sched.switch[d], (s.sched.switch[d]).slot.bind fun j => (setSlot i (some { f with next := n }) s).sched.slots[j]) = _
  cases hj : (s.sched.switch[d]).slot with
  | none => rfl
  | some j =>
    rw [Option.bind_some, Option.bind_some, setSlot_at, if_neg]
    rintro rfl
    have := h.fading d j hj
    rw [hf] at this
    exact hd (Option.some.inj this).symm

/-! ### What each event makes of the courses -/

theorem switch_others (c : Chan) (p q : Page) : OthersOn c s (instantSwitch c p q (leaveQueue c s)) :=
  (switch_moved c p q).othersOn fun _ _ _ _ => rfl

theorem instantSwitch_moved (c : Chan) (p q : Page) :
    Moved s c (.steady q) s.sched.slots s.sched.queue (instantSwitch c p q s) := by
  constructor <;> simp [instantSwitch, eqSwitch, setActiveChain, addLive, subLive, setSwitch]

theorem instantSwitch_others (c : Chan) (p q : Page) : OthersOn c s (instantSwitch c p q s) :=
  (instantSwitch_moved c p q).othersOn fun _ _ _ _ => rfl

theorem instantSwitch_switch (c : Chan) (p q : Page) : (instantSwitch c p q s).sched.switch[c] = .steady q := by
  rw [(instantSwitch_moved c p q).at, if_pos rfl]

theorem requestDisabled_others (c : Chan) (r : Page) : OthersOn c s (requestDisabled c r s) := by
  unfold requestDisabled
  split
  · split
    · exact .refl _ _
    · exact instantSwitch_others _ _ _
  · exact .refl _ _
  · exact .refl _ _

theorem requestDisabled_switch {c : Chan} (h : Rests s c) (r : Page) :
    (requestDisabled c r s).sched.switch[c] = .steady r := by
  unfold requestDisabled
  split
  · split
    · simp_all
    · exact instantSwitch_switch _ _ _
  · rename_i hc; rw [Rests, hc] at h; cases h
  · rename_i hc; rw [Rests, hc] at h; cases h

theorem SchedLaws.requestEnabled_others (h : SchedLaws s) (c : Chan) (r : Page) :
    OthersOn c s (requestEnabled c r s) := by
  unfold requestEnabled
  split
  case h_1 p hc =>
    split
    · exact .refl _ _
    · split
      case h_1 i hi => exact h.start_others (freeSlot_eq_some.mp hi).1 p r s.sched.queue
      case h_2 => exact (join_moved ..).othersOn fun _ _ _ _ => rfl
  case h_2 p q hc =>
    split
    · exact (stay_moved ..).othersOn fun _ _ _ _ => rfl
    · exact (wait_moved ..).othersOn fun _ _ _ _ => rfl
  case h_3 p i hc =>
    obtain ⟨f, hf, rfl, -⟩ := h.fade_of hc
    split
    case h_1 g hg => cases hf.symm.trans hg; exact h.redirect_others hf _
    case h_2 => exact .refl _ _

theorem SchedLaws.requestEnabled_destination (h : SchedLaws s) (c : Chan) (r : Page) :
    destination (requestEnabled c r s) c = r := by
  unfold requestEnabled
  split
  case h_1 p hc =>
    split
    · exact ‹r = p› ▸ destination_steady hc
    · split
      · rw [destination_eq]
        have := start_course (s := s) c p r ‹_› s.sched.queue
        change course (startFade c p r _ s) c = _ at this
        rw [this]
        rfl
      · rw [destination_eq, (join_moved c p r).course_at]; rfl
  case h_2 p q hc =>
    split
    · rw [destination_eq, (stay_moved c p).course_at]; exact ‹r = p›.symm
    · rw [destination_eq, (wait_moved c p r).course_at]; rfl
  case h_3 p i hc =>
    obtain ⟨f, hf, -, -⟩ := h.fade_of hc
    split
    case h_1 g hg =>
      unfold destination
      have hsw : (setSlot i (some { g with next := if r = g.target then none else some r }) s).sched.switch[c] =
          .fading p i := hc
      rw [hsw]
      simp only [setSlot_at, if_true]
      split <;> simp_all
    case h_2 hn => rw [hf] at hn; cases hn

theorem SchedLaws.pageRequest_others (h : SchedLaws s) (c : Chan) (r : Page) : OthersOn c s (pageRequest c r s) := by
  unfold pageRequest
  split
  · exact h.requestEnabled_others c r
  · exact requestDisabled_others c r

theorem SchedLaws.pageRequest_destination (h : SchedLaws s) {c : Chan}
    (hd : s.channels[c].out = none → Rests s c) (r : Page) : destination (pageRequest c r s) c = r := by
  unfold pageRequest enabled
  split
  · exact h.requestEnabled_destination c r
  · refine destination_steady (requestDisabled_switch (hd ?_) r)
    exact Option.not_isSome_iff_eq_none.mp ‹_›

/-! ### The channel that a slot is granted to -/

theorem grantHead_nil (hq : s.sched.queue = []) (i : FadeSlot) : grantHead i s = s := by
  unfold grantHead; rw [hq]

theorem grantHead_cons {d : Chan} {rest : List Chan} {p q : Page} (hq : s.sched.queue = d :: rest)
    (hd : s.sched.switch[d] = .queued p q) (i : FadeSlot) :
    grantHead i s = startFade d p q i (setQueue rest s) := by
  unfold grantHead; rw [hq]; simp only; rw [hd]

/-- A grant leaves every channel on its way to where it was, none STEADY that was not and none else. -/
theorem SchedLaws.grantHead_ways (h : SchedLaws s) {i : FadeSlot} (hi : s.sched.slots[i] = none) (c : Chan) :
    destination (grantHead i s) c = destination s c ∧
    ((grantHead i s).sched.switch[c]).steadyOn = (s.sched.switch[c]).steadyOn := by
  cases hq : s.sched.queue with
  | nil => rw [grantHead_nil hq]; exact ⟨rfl, rfl⟩
  | cons d rest =>
    obtain ⟨p, q, hd⟩ := h.head_waits hq
    rw [grantHead_cons hq hd]
    by_cases e : c = d
    · subst e
      have hc := start_course (s := s) c p q i rest
      refine ⟨?_, ?_⟩
      · rw [destination_eq, hc, destination_eq, course, hd]
        rfl
      · have := congrArg Prod.fst hc
        change (startFade c p q i (setQueue rest s)).sched.switch[c] = _ at this
        rw [this, hd]
        rfl
    · have := h.start_others (c := d) hi p q rest c e
      exact ⟨destination_congr this, by rw [course_switch this]⟩

end Sys2Proof.Machine
end

section
/-! Completions, disables and the lock loss: where they leave every channel, and the Page Scheduler's laws as an invariant
of every step (R128 to R142). -/

namespace Sys2Proof.Machine

variable {s t u : State}

/-! ### Completions -/

/-- An event leaves every channel on its way to where it was, and every channel but those of `p` as STEADY as it was. -/
def SameWays (p : Chan → Prop) (s t : State) : Prop :=
  ∀ d : Chan, destination t d = destination s d ∧
    (¬ p d → (t.sched.switch[d]).steadyOn = (s.sched.switch[d]).steadyOn)

theorem SameWays.refl (p) (s : State) : SameWays p s s := fun _ => ⟨rfl, fun _ => rfl⟩

theorem SameWays.trans {p} (h : SameWays p s t) (g : SameWays p t u) : SameWays p s u :=
  fun d => ⟨(g d).1.trans (h d).1, fun hd => ((g d).2 hd).trans ((h d).2 hd)⟩

theorem SameWays.mono {p q : Chan → Prop} (h : SameWays p s t) (hpq : ∀ d, p d → q d) : SameWays q s t :=
  fun d => ⟨(h d).1, fun hd => (h d).2 fun hp => hd (hpq d hp)⟩

theorem OthersOn.sameWays {c : Chan} (h : OthersOn c s t) (e : destination t c = destination s c) :
    SameWays (fun d => d = c) s t := by
  intro d
  by_cases hd : d = c
  · subst hd; exact ⟨e, fun hn => absurd rfl hn⟩
  · exact ⟨destination_congr (h d hd), fun _ => by rw [course_switch (h d hd)]⟩

theorem SchedLaws.destination_fading (h : SchedLaws s) {i : FadeSlot} {f : Fade} (hf : s.sched.slots[i] = some f) :
    destination s f.channel = f.next.getD f.target := by
  have hs := h.occupied i f hf
  unfold destination
  rw [hs]
  simp only [hf]

theorem requeue_moved {f : Fade} {r : Page} (hn : f.next = some r) :
    Moved s f.channel (.queued f.target r) s.sched.slots (s.sched.queue ++ [f.channel]) (requeue f s) := by
  unfold requeue; rw [hn]; exact join_moved ..

theorem requeue_none {f : Fade} (hn : f.next = none) : requeue f s = s := by
  unfold requeue; rw [hn]

theorem requeue_destination {f : Fade} (hs : s.sched.switch[f.channel] = .steady f.target) :
    destination (requeue f s) f.channel = f.next.getD f.target := by
  cases hn : f.next with
  | none => rw [requeue_none hn]; exact destination_steady hs
  | some r => rw [destination_eq, (requeue_moved hn).course_at]; rfl

theorem requeue_others (f : Fade) : OthersOn f.channel s (requeue f s) := by
  cases hn : f.next with
  | none => rw [requeue_none hn]; exact .refl _ _
  | some r => exact (requeue_moved hn).othersOn fun _ _ _ _ => rfl

/-- The state a completion grants its slot in: the fade carried over and its channel queued again where it has a next
target (R136 steps 1 and 2). -/
def carried (f : Fade) (i : FadeSlot) (s : State) : State := requeue f (carryOver f i s)

theorem completeFade_eq {i : FadeSlot} {f : Fade} (hf : s.sched.slots[i] = some f) :
    completeFade i s = grantHead i (carried f i s) := by
  unfold completeFade; rw [hf]; rfl

theorem carried_slots (f : Fade) (i : FadeSlot) : (carried f i s).sched.slots = s.sched.slots.set i none := by
  rw [carried, (requeue_only f).1, (carry_moved f i).slots]

theorem carried_slot (f : Fade) (i : FadeSlot) : (carried f i s).sched.slots[i] = none := by
  rw [carried_slots, get_set, if_pos rfl]

theorem carried_channels (f : Fade) (i : FadeSlot) : (carried f i s).channels = s.channels := by
  rw [carried, (requeue_only f).2, (carry_moved f i).channels]

theorem carried_queue (f : Fade) (i : FadeSlot) :
    (carried f i s).sched.queue = s.sched.queue ++ if f.next = none then [] else [f.channel] := by
  unfold carried
  cases hn : f.next with
  | none => rw [requeue_none hn, (carry_moved f i).queue]; simp
  | some r => rw [(requeue_moved hn).queue, (carry_moved f i).queue]; simp

theorem SchedLaws.fading_runs (h : SchedLaws s) {i : FadeSlot} {f : Fade} (hf : s.sched.slots[i] = some f)
    (hd : ∀ c : Chan, s.channels[c].out = none → Rests s c) : s.channels[f.channel].out ≠ none := by
  intro ho
  have := hd _ ho
  rw [Rests, h.occupied i f hf] at this
  cases this

theorem SchedLaws.carried_acts (h : SchedLaws s) {i : FadeSlot} {f : Fade} (hf : s.sched.slots[i] = some f)
    (hd : ∀ c : Chan, s.channels[c].out = none → Rests s c) : SchedActs s (carried f i s) :=
  (SchedAct.carry i f hf).acts.trans
    (requeue_acts (carryOver_switch f i) (h.pages i f hf).2
      (by rw [(carry_moved f i).channels]; exact h.fading_runs hf hd))

theorem SchedLaws.carried_ways (h : SchedLaws s) {i : FadeSlot} {f : Fade} (hf : s.sched.slots[i] = some f) :
    SameWays (fun d => d = f.channel) s (carried f i s) := by
  refine ((h.carry_others hf).trans (requeue_others f)).sameWays ?_
  rw [h.destination_fading hf]
  exact requeue_destination (carryOver_switch f i)

theorem SchedLaws.completeFade_ways (h : SchedLaws s) (hd : ∀ c : Chan, s.channels[c].out = none → Rests s c)
    {i : FadeSlot} {f : Fade} (hf : s.sched.slots[i] = some f) :
    SameWays (fun d => d = f.channel) s (completeFade i s) := by
  rw [completeFade_eq hf]
  refine (h.carried_ways hf).trans fun d => ?_
  obtain ⟨hw, hs⟩ := (SchedActs.laws (h.carried_acts hf hd) h).grantHead_ways (carried_slot f i) d
  exact ⟨hw, fun _ => hs⟩

/-! ### Disables and the lock loss -/

theorem endFade_moved (f : Fade) (i : FadeSlot) :
    Moved s f.channel (.steady (f.next.getD f.target)) (s.sched.slots.set i none) s.sched.queue (endFade f i s) := by
  have m := carry_moved (s := s) f i
  dsimp only [endFade]
  split
  · rename_i hn; rw [hn]; exact m
  · rename_i r hn
    have m' := instantSwitch_moved (s := carryOver f i s) f.channel f.target r
    refine ⟨?_, m'.slots.trans m.slots, m'.queue.trans m.queue, m'.channels.trans m.channels, m'.zones.trans m.zones⟩
    rw [m'.switch, m.switch, hn]
    simp

/-- At the lock loss a channel is on the page it was on its way to, its slot free and its place in the queue given up
(R142). -/
theorem SchedLaws.lose_moved (h : SchedLaws s) (c : Chan) : ∃ slots,
    Moved s c (.steady (destination s c)) slots (s.sched.queue.erase c) (schedLoseChannel s c) ∧
    (∀ d : Chan, d ≠ c → ∀ i : FadeSlot, (s.sched.switch[d]).slot = some i → slots[i] = s.sched.slots[i]) ∧
    (∀ i : FadeSlot, (s.sched.switch[c]).slot ≠ some i → slots[i] = s.sched.slots[i]) := by
  unfold schedLoseChannel
  split
  case h_1 p hc =>
    refine ⟨s.sched.slots, ⟨?_, rfl, ?_, rfl, rfl⟩, fun _ _ _ _ => rfl, fun _ _ => rfl⟩
    · rw [destination_steady hc, ← hc]; simp
    · rw [List.erase_of_not_mem]
      rw [h.queued, hc]; simp [Switch.waitingFor]
  case h_2 p q hc =>
    refine ⟨s.sched.slots, ?_, fun _ _ _ _ => rfl, fun _ _ => rfl⟩
    have : destination s c = q := by unfold destination; rw [hc]
    rw [this]
    exact switch_moved c p q
  case h_3 p i hc =>
    obtain ⟨f, hf, rfl, -⟩ := h.fade_of hc
    rw [hf]
    refine ⟨s.sched.slots.set i none, ?_, fun d hd j hj => ?_, fun j hj => ?_⟩
    · have hq : s.sched.queue.erase f.channel = s.sched.queue := by
        rw [List.erase_of_not_mem]
        rw [h.queued, hc]; simp [Switch.waitingFor]
      rw [h.destination_fading hf, hq]
      exact endFade_moved f i
    · rw [get_set, if_neg]
      rintro rfl
      have := h.fading d j hj
      rw [hf] at this
      exact hd (Option.some.inj this).symm
    · rw [get_set, if_neg]
      rintro rfl
      exact hj (by rw [hc]; rfl)

theorem SchedLaws.lose_others (h : SchedLaws s) (c : Chan) : OthersOn c s (schedLoseChannel s c) := by
  obtain ⟨slots, m, hs, -⟩ := h.lose_moved c
  exact m.othersOn hs

theorem SchedLaws.lose_switch (h : SchedLaws s) (c : Chan) :
    (schedLoseChannel s c).sched.switch[c] = .steady (destination s c) := by
  obtain ⟨slots, m, -⟩ := h.lose_moved c
  rw [m.at, if_pos rfl]

/-- The lock loss, channel by channel: those of the list are on the pages they were on their way to. -/
theorem SchedLaws.lose_foldl (l : List Chan) : ∀ {s : State}, SchedLaws s →
    SchedActs s (l.foldl schedLoseChannel s) ∧
    ∀ d : Chan, (d ∈ l → (l.foldl schedLoseChannel s).sched.switch[d] = .steady (destination s d)) ∧
      (d ∉ l → course (l.foldl schedLoseChannel s) d = course s d) := by
  induction l with
  | nil => exact fun _ => ⟨.refl, fun d => ⟨fun hd => absurd hd (by simp), fun _ => rfl⟩⟩
  | cons c l ih =>
    intro s h
    have a := h.schedLoseChannel_acts c
    obtain ⟨acts, at'⟩ := ih (SchedActs.laws a h)
    refine ⟨a.trans acts, fun d => ?_⟩
    obtain ⟨inl, notl⟩ := at' d
    rw [List.foldl_cons]
    by_cases hc : d = c
    · subst hc
      refine ⟨fun _ => ?_, fun hn => absurd List.mem_cons_self hn⟩
      have hs := h.lose_switch d
      by_cases hl : d ∈ l
      · rw [inl hl, destination_steady hs]
      · rw [course_switch (notl hl), hs]
    · have same := h.lose_others c d hc
      refine ⟨fun hd => ?_, fun hd => (notl fun hl => hd (List.mem_cons_of_mem _ hl)).trans same⟩
      rw [inl ((List.mem_cons.mp hd).resolve_left hc), destination_congr same]

/-- The state after every channel has been brought to rest at the lock loss, before the flags (R142). -/
def allLost (s : State) : State := (List.finRange 24).foldl schedLoseChannel s

theorem SchedLaws.allLost_acts (h : SchedLaws s) : SchedActs s (allLost s) := (SchedLaws.lose_foldl _ h).1

theorem SchedLaws.allLost_switch (h : SchedLaws s) (d : Chan) :
    (allLost s).sched.switch[d] = .steady (destination s d) := by
  have := ((SchedLaws.lose_foldl (List.finRange 24) h).2 d).1 (List.mem_finRange d)
  rw [← allLost] at this
  exact this

theorem SchedLaws.slots_of_rest (h : SchedLaws s) (hr : ∀ d, Rests s d) : s.sched.slots = Vector.replicate 8 none := by
  ext i hi : 1
  rw [Vector.getElem_replicate]
  cases hf : s.sched.slots[i] with
  | none => rfl
  | some f =>
    have := hr f.channel
    rw [Rests, h.occupied ⟨i, hi⟩ f hf] at this
    cases this

theorem SchedLaws.queue_of_rest (h : SchedLaws s) (hr : ∀ d, Rests s d) : s.sched.queue = [] := by
  refine List.eq_nil_iff_forall_not_mem.mpr fun d hd => ?_
  have hw := (h.queued d).mp hd
  have := hr d
  unfold Rests at this
  cases hs : s.sched.switch[d] <;> rw [hs] at this hw <;> cases this
  cases hw

theorem SchedLaws.allLost_rest (h : SchedLaws s) (d : Chan) : Rests (allLost s) d := by
  rw [Rests, h.allLost_switch]; rfl

theorem SchedLaws.schedLockLoss_eq (h : SchedLaws s) : schedLockLoss s = resettleZones true true (allLost s) := by
  have l := SchedActs.laws h.allLost_acts h
  have hs := l.slots_of_rest h.allLost_rest
  have hq := l.queue_of_rest h.allLost_rest
  unfold schedLockLoss
  rw [← allLost]
  dsimp only
  rw [← hs, ← hq]

/-- A disabled channel is brought to rest on the page it was on its way to, and the slot it was in granted (R139). -/
theorem SchedLaws.schedDisable_eq (h : SchedLaws s) (c : Chan) : schedDisable c s =
    match (s.sched.switch[c]).slot with
    | none => schedLoseChannel s c
    | some i => grantHead i (schedLoseChannel s c) := by
  unfold schedDisable schedLoseChannel
  cases hc : s.sched.switch[c] with
  | steady p => rfl
  | queued p q => rfl
  | fading p i =>
    obtain ⟨f, hf, -, -⟩ := h.fade_of hc
    simp only [Switch.slot, hf]

theorem SchedLaws.lose_slot (h : SchedLaws s) {c : Chan} {i : FadeSlot} (hc : (s.sched.switch[c]).slot = some i) :
    (schedLoseChannel s c).sched.slots[i] = none := by
  have hi := h.fading c i hc
  obtain ⟨f, hf, rfl⟩ := Option.map_eq_some_iff.mp hi
  have : schedLoseChannel s f.channel = endFade f i s := by
    unfold schedLoseChannel
    rw [h.occupied i f hf]
    simp only [hf]
  rw [this, (endFade_moved f i).slots, get_set, if_pos rfl]

theorem SchedLaws.lose_queue (h : SchedLaws s) (c : Chan) :
    (schedLoseChannel s c).sched.queue = s.sched.queue.erase c := by
  obtain ⟨slots, m, -⟩ := h.lose_moved c
  exact m.queue

theorem SchedLaws.schedDisable_acts (h : SchedLaws s) (c : Chan)
    (hd : ∀ d : Chan, d ≠ c → s.channels[d].out = none → Rests s d) : SchedActs s (schedDisable c s) := by
  have a := h.schedLoseChannel_acts c
  rw [h.schedDisable_eq]
  split
  · exact a
  · rename_i i hc
    have l := SchedActs.laws a h
    refine a.trans (l.grantHead_acts (h.lose_slot hc) fun d hq => l.running (fun e ho => ?_) hq)
    by_cases he : e = c
    · subst he; rw [Rests, h.lose_switch]; rfl
    · rw [(SchedActs.onlyPages a).channels] at ho
      exact (SchedActs.rests a e ho (hd e he ho)).2

theorem SchedLaws.schedDisable_ways (h : SchedLaws s) (c : Chan) :
    SameWays (fun d => d = c) s (schedDisable c s) ∧
    (schedDisable c s).sched.switch[c] = .steady (destination s c) := by
  have lost : SameWays (fun d => d = c) s (schedLoseChannel s c) :=
    (h.lose_others c).sameWays (destination_steady (h.lose_switch c))
  rw [h.schedDisable_eq]
  split
  · exact ⟨lost, h.lose_switch c⟩
  · rename_i i hc
    have l := SchedActs.laws (h.schedLoseChannel_acts c) h
    have g := fun d => l.grantHead_ways (h.lose_slot hc) d
    refine ⟨lost.trans fun d => ⟨(g d).1, fun _ => (g d).2⟩, ?_⟩
    have hs := (g c).2
    rw [h.lose_switch] at hs
    cases hw : (grantHead i (schedLoseChannel s c)).sched.switch[c] with
    | steady p => rw [hw] at hs; exact congrArg Switch.steady (Option.some.inj hs)
    | queued p q => rw [hw] at hs; cases hs
    | fading p j => rw [hw] at hs; cases hs

end Sys2Proof.Machine
end

section
/-! The third to sixth and the tenth laws as an invariant of every step (R128 to R137). -/

namespace Sys2Proof.Machine

variable {s t u : State}

/-- The laws of `SchedInv` but that no fade has reached its length, which fails for an instant where fades step. -/
structure SchedSound (s : State) : Prop where
  laws : SchedLaws s
  full : FullWhileWaiting s
  resting : ∀ c : Chan, s.channels[c].out = none → Rests s c

theorem schedInv_iff_sound : SchedInv s ↔ SchedSound s ∧ ∀ i, reachedEnd s i = false := by
  rw [schedInv_iff]
  exact ⟨fun ⟨l, f, r, d⟩ => ⟨⟨l, f, d⟩, r⟩, fun ⟨⟨l, f, d⟩, r⟩ => ⟨l, f, r, d⟩⟩

theorem SchedInv.sound (h : SchedInv s) : SchedSound s := (schedInv_iff_sound.mp h).1

theorem SchedInv.notReached (h : SchedInv s) (i : FadeSlot) : reachedEnd s i = false := (schedInv_iff_sound.mp h).2 i

/-- The switch states, slots, queue and enabled states are the same, and the exponents are or are in range. -/
structure SameSched (s t : State) : Prop where
  switch : t.sched.switch = s.sched.switch
  slots : t.sched.slots = s.sched.slots
  queue : t.sched.queue = s.sched.queue
  out : ∀ c : Chan, t.channels[c].out = s.channels[c].out
  exponent : ∀ z : Zone, (t.gain.zones.get z).exponent = (s.gain.zones.get z).exponent ∨
    8 ≤ (t.gain.zones.get z).exponent ∧ (t.gain.zones.get z).exponent ≤ 13

theorem SchedSound.of_same (h : SchedSound s) (e : SameSched s t) : SchedSound t := by
  obtain ⟨⟨h1, h2, h3, h4, h5, h6, h7, h8⟩, hf, hd⟩ := h
  obtain ⟨es, el, eq, eo, ee⟩ := e
  refine ⟨⟨?_, ?_, ?_, ?_, ?_, ?_, ?_, fun z => (ee z).elim (fun e => e ▸ h8 z) id⟩, ?_, fun c hc => ?_⟩
  case refine_9 => rw [eo] at hc; simp only [Rests, es]; exact hd c hc
  all_goals simp only [FullWhileWaiting, es, el, eq]; assumption

theorem SchedInv.of_same (h : SchedInv s) (e : SameSched s t) : SchedInv t :=
  schedInv_iff_sound.mpr ⟨h.sound.of_same e, fun i => by unfold reachedEnd; rw [e.slots]; exact h.notReached i⟩

theorem sameSched_resettle (z : Zone) : SameSched s (resettle z s) := by
  have g := onlyPages_resettle (s := s) z
  exact ⟨by simp [resettle], by simp [resettle], by simp [resettle], fun c => by rw [g.channels], fun y => .inl (by rw [g.gain])⟩

theorem SameSched.refl (s : State) : SameSched s s := ⟨rfl, rfl, rfl, fun _ => rfl, fun _ => .inl rfl⟩

theorem SameSched.of_eq (hs : t.sched = s.sched) (hc : t.channels = s.channels) (hz : t.gain.zones = s.gain.zones) :
    SameSched s t :=
  ⟨by rw [hs], by rw [hs], by rw [hs], fun _ => by rw [hc], fun _ => .inl (by rw [hz])⟩

theorem SameSched.trans (h : SameSched s t) (g : SameSched t u) : SameSched s u :=
  ⟨g.switch.trans h.switch, g.slots.trans h.slots, g.queue.trans h.queue, fun c => (g.out c).trans (h.out c),
    fun z => (g.exponent z).elim (fun e => by rw [e]; exact h.exponent z) .inr⟩

theorem sameSched_resettleZones (a b : Bool) : SameSched s (resettleZones a b s) := by
  cases a <;> cases b
  · exact .refl s
  · exact sameSched_resettle _
  · exact sameSched_resettle _
  · exact (sameSched_resettle _).trans (sameSched_resettle _)

/-! ### The full slots -/

/-- What frees no slot and adds no one to the queue keeps the slots full. -/
theorem FullWhileWaiting.keep (h : FullWhileWaiting s) (hq : t.sched.queue ≠ [] → s.sched.queue ≠ [])
    (hs : ∀ i : FadeSlot, (s.sched.slots[i]).isSome = true → (t.sched.slots[i]).isSome = true) : FullWhileWaiting t :=
  fun ht i => hs i (h (hq ht) i)

theorem Moved.full {c w slots queue} (m : Moved s c w slots queue t) (h : FullWhileWaiting s)
    (hq : queue ≠ [] → s.sched.queue ≠ [])
    (hs : ∀ i : FadeSlot, (s.sched.slots[i]).isSome = true → (slots[i]).isSome = true) : FullWhileWaiting t :=
  h.keep (by rw [m.queue]; exact hq) (by rw [m.slots]; exact hs)

theorem isSome_set {v : Vector (Option Fade) 8} {i j : FadeSlot} {f : Fade} (h : (v[j]).isSome = true) :
    ((v.set i (some f))[j]).isSome = true := by
  rw [get_set]; split
  · rfl
  · exact h

theorem ne_nil_of_erase {c : Chan} {l : List Chan} (h : l.erase c ≠ []) : l ≠ [] := by
  rintro rfl; exact h rfl

theorem requestEnabled_full (h : FullWhileWaiting s) (c : Chan) (r : Page) : FullWhileWaiting (requestEnabled c r s) := by
  unfold requestEnabled
  split
  case h_1 p hc =>
    split
    · exact h
    · split
      case h_1 i hi => exact (start_moved c p r i s.sched.queue).full h id fun j hj => isSome_set hj
      case h_2 hn =>
        intro _ i
        rw [(join_moved c p r).slots]
        exact Option.isSome_iff_ne_none.mpr (freeSlot_eq_none.mp hn i)
  case h_2 p q hc =>
    split
    · exact (stay_moved c p).full h ne_nil_of_erase fun _ => id
    · exact (wait_moved c p r).full h id fun _ => id
  case h_3 p i hc =>
    split
    case h_1 f hf => exact h.keep id fun j hj => isSome_set hj
    case h_2 => exact h

theorem requestDisabled_full (h : FullWhileWaiting s) (c : Chan) (r : Page) : FullWhileWaiting (requestDisabled c r s) := by
  unfold requestDisabled
  split
  · split
    · exact h
    · exact (instantSwitch_moved c _ r).full h id fun _ => id
  · exact h
  · exact h

theorem pageRequest_full (h : FullWhileWaiting s) (c : Chan) (r : Page) : FullWhileWaiting (pageRequest c r s) := by
  unfold pageRequest
  split
  · exact requestEnabled_full h c r
  · exact requestDisabled_full h c r

/-- A grant leaves the slots full while a channel waits, where only the slot it grants was free. -/
theorem SchedLaws.grantHead_full (h : SchedLaws s) {i : FadeSlot}
    (hs : ∀ d rest, s.sched.queue = d :: rest → rest ≠ [] → ∀ j : FadeSlot, j ≠ i → (s.sched.slots[j]).isSome = true) :
    FullWhileWaiting (grantHead i s) := by
  cases hq : s.sched.queue with
  | nil => rw [grantHead_nil hq]; intro hn; exact absurd hq hn
  | cons d rest =>
    obtain ⟨p, q, hd⟩ := h.head_waits hq
    rw [grantHead_cons hq hd]
    have m := start_moved (s := s) d p q i rest
    intro hne j
    rw [m.queue] at hne
    rw [m.slots, get_set]
    split
    · rfl
    · exact hs d rest hq hne j ‹_›

/-! ### Events -/

theorem SchedSound.acts (h : SchedSound s) (a : SchedActs s t) (f : FullWhileWaiting t) : SchedSound t :=
  ⟨SchedActs.laws a h.laws, f, fun c ho => by
    rw [(SchedActs.onlyPages a).channels] at ho
    exact (SchedActs.rests a c ho (h.resting c ho)).2⟩

theorem SchedSound.pageRequest (h : SchedSound s) (c : Chan) (r : Page) : SchedSound (pageRequest c r s) :=
  h.acts (h.laws.pageRequest_acts c r) (pageRequest_full h.full c r)

theorem SchedSound.completeFade_acts (h : SchedSound s) (i : FadeSlot) : SchedActs s (completeFade i s) :=
  h.laws.completeFade_acts h.resting i

theorem SchedSound.carried (h : SchedSound s) {i : FadeSlot} {f : Fade} (hf : s.sched.slots[i] = some f) :
    SchedLaws (carried f i s) := SchedActs.laws (h.laws.carried_acts hf h.resting) h.laws

theorem SchedSound.completeFade (h : SchedSound s) (i : FadeSlot) : SchedSound (completeFade i s) := by
  refine h.acts (h.completeFade_acts i) ?_
  cases hf : s.sched.slots[i] with
  | none => unfold Machine.completeFade; rw [hf]; exact h.full
  | some f =>
    rw [completeFade_eq hf]
    refine (h.carried hf).grantHead_full fun d rest hq hne j hj => ?_
    rw [carried_slots, get_set, if_neg hj]
    refine h.full (fun hn => ?_) j
    rw [carried_queue, hn, List.nil_append] at hq
    split at hq
    · cases hq
    · cases hq; exact hne rfl

/-- After a completion no fade has reached its length that had not, and not the one in the slot. -/
theorem SchedSound.completeFade_reached (h : SchedSound s) (i j : FadeSlot) (hj : j = i ∨ reachedEnd s j = false) :
    reachedEnd (Machine.completeFade i s) j = false := by
  cases hf : s.sched.slots[i] with
  | none =>
    unfold Machine.completeFade
    rw [hf]
    rcases hj with rfl | hj
    · simp [reachedEnd, hf]
    · exact hj
  | some f =>
    rw [completeFade_eq hf]
    have l := h.carried hf
    have hd : ∀ c : Chan, (Machine.carried f i s).channels[c].out = none → Rests (Machine.carried f i s) c := fun c ho => by
      rw [carried_channels] at ho
      exact (SchedActs.rests (h.laws.carried_acts hf h.resting) c ho (h.resting c ho)).2
    refine SchedActs.reached (l.grantHead_acts (carried_slot f i) fun d hq => l.running hd hq) l j ?_
    rcases hj with rfl | hj
    · unfold reachedEnd; rw [carried_slot]; rfl
    · exact SchedActs.reached (h.laws.carried_acts hf h.resting) h.laws j hj

theorem SchedInv.events (h : SchedInv s) (a : SchedActs s t) (ht : SchedSound t) : SchedInv t :=
  schedInv_iff_sound.mpr ⟨ht, fun i => SchedActs.reached a h.sound.laws i (h.notReached i)⟩

theorem SchedInv.pageRequest (h : SchedInv s) (c : Chan) (r : Page) : SchedInv (pageRequest c r s) :=
  h.events (h.sound.laws.pageRequest_acts c r) (h.sound.pageRequest c r)

theorem SchedInv.completeFade (h : SchedInv s) (i : FadeSlot) : SchedInv (completeFade i s) :=
  h.events (h.sound.completeFade_acts i) (h.sound.completeFade i)

theorem SchedInv.resettle (h : SchedInv s) (z : Zone) : SchedInv (resettle z s) := h.of_same (sameSched_resettle z)

theorem SchedInv.resettleZones (h : SchedInv s) (a b : Bool) : SchedInv (resettleZones a b s) :=
  h.of_same (sameSched_resettleZones a b)

/-! ### Sets of requests -/

/-- The channel's zone is one that `a` or `b` picks. -/
def asked (a b : Bool) (s : State) (c : Chan) : Bool :=
  match s.channels[c].zone with
  | .a => a
  | .b => b

theorem requestIfIn_eq (a b : Bool) (s : State) (c : Chan) : requestIfIn a b s c =
    if asked a b s c then pageRequest c (s.gain.zones.get s.channels[c].zone).requestedPage s else s := by
  unfold requestIfIn asked
  cases s.channels[c].zone <;> rfl

theorem requestIfIn_acts (h : SchedLaws s) (a b : Bool) (c : Chan) : SchedActs s (requestIfIn a b s c) := by
  rw [requestIfIn_eq]
  split
  · exact h.pageRequest_acts _ _
  · exact .refl

theorem requests_acts (a b : Bool) (l : List Chan) : ∀ {s : State}, SchedLaws s →
    SchedActs s (l.foldl (requestIfIn a b) s) := by
  induction l with
  | nil => exact fun _ => .refl
  | cons c l ih =>
    intro s h
    have act := requestIfIn_acts h a b c
    exact act.trans (ih (SchedActs.laws act h))

theorem SchedInv.requests (a b : Bool) (l : List Chan) : ∀ {s : State}, SchedInv s →
    SchedInv (l.foldl (requestIfIn a b) s) := by
  induction l with
  | nil => exact fun h => h
  | cons c l ih =>
    intro s h
    refine ih ?_
    rw [requestIfIn_eq]
    split
    · exact h.pageRequest _ _
    · exact h

theorem SchedInv.handRequests (h : SchedInv s) (a b : Bool) : SchedInv (handRequests a b s) := by
  unfold Machine.handRequests
  exact (SchedInv.requests a b _ h).resettleZones a b

theorem reviewedZones_exponent (a b : Bool) (zs : PerZone ZoneRecord) (z : Zone) :
    ((reviewedZones a b zs).get z).exponent = (zs.get z).exponent := by
  cases z <;> simp only [reviewedZones, PerZone.get] <;> split <;> rfl

theorem SchedInv.reviewPages (h : SchedInv s) (a b : Bool) : SchedInv (reviewPages a b s) := by
  have hz : SchedInv { s with gain.zones := reviewedZones a b s.gain.zones } :=
    h.of_same ⟨rfl, rfl, rfl, fun _ => rfl, fun z => .inl (reviewedZones_exponent a b s.gain.zones z)⟩
  dsimp only [Machine.reviewPages]
  split
  · exact hz.handRequests _ _
  · exact hz

theorem SchedInv.speedEvent (h : SchedInv s) (r : SpeedTracker) : SchedInv (speedEvent r s) := by
  unfold Machine.speedEvent handEffective
  split
  · refine SchedInv.reviewPages ?_ true true
    refine h.of_same ⟨by simp [setSpeed], by simp [setSpeed], by simp [setSpeed], fun _ => by simp [setSpeed],
      fun z => .inl ?_⟩
    cases z <;> simp [setSpeed, PerZone.get, evalSdv]
  · exact h.of_same ⟨rfl, rfl, rfl, fun _ => rfl, fun _ => .inl rfl⟩

end Sys2Proof.Machine
end

section
/-! The Page Scheduler's laws through a channel load, a frame's fades and the lock loss. -/

namespace Sys2Proof.Machine

variable {s t u : State}

/-! ### A channel load -/

theorem SchedInv.requestDisabled (h : SchedInv s) (c : Chan) (r : Page) : SchedInv (requestDisabled c r s) :=
  have a := h.sound.laws.requestDisabled_acts c r
  h.events a (h.sound.acts a (requestDisabled_full h.sound.full c r))

theorem SchedInv.requestEnabled (h : SchedInv s) {c : Chan} (hc : s.channels[c].out ≠ none) (r : Page) :
    SchedInv (requestEnabled c r s) :=
  have a := requestEnabled_acts hc r
  h.events a (h.sound.acts a (requestEnabled_full h.sound.full c r))

theorem storeRecord_at (c d : Chan) (r : ChannelRecord) :
    (storeRecord c r s).channels[d] = if d = c then r else s.channels[d] := by
  rw [storeRecord_channels, get_set]

theorem SchedLaws.storeRecord (h : SchedLaws s) (c : Chan) (r : ChannelRecord) : SchedLaws (storeRecord c r s) := by
  obtain ⟨h1, h2, h3, h4, h5, h6, h7, h8⟩ := h
  constructor
  all_goals simp only [storeRecord_sched, storeRecord_gain_zones]; assumption

theorem rests_storeRecord (c d : Chan) (r : ChannelRecord) : Rests (storeRecord c r s) d ↔ Rests s d := by
  simp only [Rests, storeRecord_sched]

theorem SchedInv.storeRecord (h : SchedInv s) {c : Chan} {r : ChannelRecord} (hr : r.out = none → Rests s c) :
    SchedInv (storeRecord c r s) := by
  refine schedInv_iff_sound.mpr ⟨⟨h.sound.laws.storeRecord c r, ?_, fun d ho => ?_⟩, fun i => ?_⟩
  · simp only [FullWhileWaiting, storeRecord_sched]; exact h.sound.full
  · rw [rests_storeRecord]
    rw [storeRecord_at] at ho
    split at ho
    · subst_vars; exact hr ho
    · exact h.sound.resting d ho
  · simp only [reachedEnd, storeRecord_sched]; exact h.notReached i

/-- The laws while channel `c` is disabled but not yet at rest. -/
structure Disabling (c : Chan) (s : State) : Prop where
  laws : SchedLaws s
  full : FullWhileWaiting s
  resting : ∀ d : Chan, d ≠ c → s.channels[d].out = none → Rests s d
  notReached : ∀ i, reachedEnd s i = false

theorem SchedInv.disabling (h : SchedInv s) (c : Chan) (r : ChannelRecord) : Disabling c (Machine.storeRecord c r s) := by
  refine ⟨h.sound.laws.storeRecord c r, ?_, fun d hd ho => ?_, fun i => ?_⟩
  · simp only [FullWhileWaiting, storeRecord_sched]; exact h.sound.full
  · rw [rests_storeRecord]
    rw [storeRecord_at, if_neg hd] at ho
    exact h.sound.resting d ho
  · simp only [reachedEnd, storeRecord_sched]; exact h.notReached i

theorem SchedLaws.disable_full (h : SchedLaws s) (f : FullWhileWaiting s) (c : Chan) :
    FullWhileWaiting (schedDisable c s) := by
  obtain ⟨slots, m, -, hs⟩ := h.lose_moved c
  have l := SchedActs.laws (h.schedLoseChannel_acts c) h
  rw [h.schedDisable_eq]
  split
  · rename_i hc
    refine m.full f ne_nil_of_erase fun i hi => ?_
    rw [hs i (by rw [hc]; simp)]
    exact hi
  · rename_i i hc
    refine l.grantHead_full fun d rest hq _ j hj => ?_
    rw [m.queue] at hq
    rw [m.slots, hs j (by rw [hc]; simpa using hj.symm)]
    exact f (ne_nil_of_erase (by rw [hq]; simp)) j

theorem Disabling.schedDisable {c : Chan} (h : Disabling c s) : SchedInv (schedDisable c s) := by
  have a := h.laws.schedDisable_acts c h.resting
  refine schedInv_iff_sound.mpr ⟨⟨SchedActs.laws a h.laws, h.laws.disable_full h.full c, fun d ho => ?_⟩,
    fun i => SchedActs.reached a h.laws i (h.notReached i)⟩
  by_cases hd : d = c
  · subst hd; rw [Rests, (h.laws.schedDisable_ways d).2]; rfl
  · rw [(SchedActs.onlyPages a).channels] at ho
    exact (SchedActs.rests a d ho (h.resting d hd ho)).2

theorem SchedInv.emptyDelay_zeroActive (h : SchedInv s) (c : Chan) : SchedInv (emptyDelay c (zeroActive c s)) :=
  h.of_same ⟨rfl, rfl, rfl, fun _ => rfl, fun _ => .inl rfl⟩

theorem SchedInv.loadRecord (h : SchedInv s) (c : Chan) (r : ChannelRecord) : SchedInv (loadRecord c r s) := by
  have move (g : SchedInv (Machine.storeRecord c r s)) (z : Zone) : SchedInv (moveChannel c z (Machine.storeRecord c r s)) :=
    (g.pageRequest _ _).resettleZones _ _
  dsimp only [Machine.loadRecord]
  split
  · have d := (h.disabling c r).schedDisable
    unfold disableChannel
    dsimp only
    refine SchedInv.emptyDelay_zeroActive ?_ c
    refine SchedInv.resettleZones ?_ _ _
    split
    · exact d.requestDisabled _ _
    · exact d
  · rename_i hr
    have hout : r.out ≠ none := Option.isSome_iff_ne_none.mp hr
    have g : SchedInv (Machine.storeRecord c r s) := h.storeRecord fun ho => absurd ho hout
    unfold enableChannel
    dsimp only
    refine SchedInv.resettleZones ?_ _ _
    have enabled' (v : State) (hv : v.channels = (Machine.storeRecord c r s).channels) : v.channels[c].out ≠ none := by
      rw [hv, storeRecord_at, if_pos rfl]; exact hout
    split
    · exact (g.requestDisabled c _).requestEnabled (enabled' _ (onlyPages_requestDisabled _ _).channels) _
    · exact g.requestEnabled (enabled' _ rfl) _
  · rename_i hr
    have g : SchedInv (Machine.storeRecord c r s) :=
      h.storeRecord fun ho => absurd ho (Option.isSome_iff_ne_none.mp hr)
    split
    · exact move g _
    · exact g
  · rename_i ho _
    have g : SchedInv (Machine.storeRecord c r s) :=
      h.storeRecord fun _ => h.sound.resting c (Option.not_isSome_iff_eq_none.mp (by rw [ho]; exact Bool.false_ne_true))
    split
    · exact move g _
    · exact g

/-! ### The fades of a frame -/

/-- Every fade is in its slot as it was, but for its progress. -/
def SameButProgress (s t : State) : Prop :=
  ∀ i : FadeSlot, ∃ n : Nat, t.sched.slots[i] = (s.sched.slots[i]).map fun f => { f with k := f.k + n }

theorem stepSlots_slot (view : View) (step : Stepping) : SameButProgress s (stepSlots view step s) := by
  intro i
  have : (stepSlots view step s).sched.slots[i] = (steppedSlots view step s)[i] := rfl
  rw [this]
  simp only [steppedSlots, Fin.getElem_fin, Vector.getElem_ofFn, Fin.eta]
  cases hf : stepsIn s step i with
  | none => exact ⟨0, by simp⟩
  | some f =>
    have := (Option.filter_eq_some_iff.mp hf).1
    simp only [Fin.getElem_fin] at this
    simp only [this, Option.map_some]
    split
    · exact ⟨1, rfl⟩
    · exact ⟨0, rfl⟩

theorem SchedSound.stepSlots (h : SchedSound s) (view : View) (step : Stepping) : SchedSound (stepSlots view step s) := by
  have hs := stepSlots_slot (s := s) view step
  have back {i : FadeSlot} {f : Fade} (hf : (Machine.stepSlots view step s).sched.slots[i] = some f) :
      ∃ g n, s.sched.slots[i] = some g ∧ f = { g with k := g.k + n } := by
    obtain ⟨n, hn⟩ := hs i
    rw [hf] at hn
    obtain ⟨g, hg, e⟩ := Option.map_eq_some_iff.mp hn.symm
    exact ⟨g, n, hg, e.symm⟩
  obtain ⟨⟨h1, h2, h3, h4, h5, h6, h7, h8⟩, hf, hd⟩ := h
  refine ⟨⟨fun c i hi => ?_, fun i f hf => ?_, fun i f hf => ?_, fun i f hf => ?_, h5, h6, h7, h8⟩, fun hq i => ?_, hd⟩
  · obtain ⟨n, hn⟩ := hs i
    rw [hn, Option.map_map]
    exact h1 c i hi
  · obtain ⟨g, n, hg, rfl⟩ := back hf; exact h2 i g hg
  · obtain ⟨g, n, hg, rfl⟩ := back hf; exact h3 i g hg
  · obtain ⟨g, n, hg, rfl⟩ := back hf; exact h4 i g hg
  · obtain ⟨n, hn⟩ := hs i
    rw [hn, Option.isSome_map]
    exact hf hq i

theorem completions_sound (l : List FadeSlot) : ∀ {s : State}, SchedSound s →
    SchedSound (l.foldl completeIfReached s) ∧ SchedActs s (l.foldl completeIfReached s) ∧
    ∀ i, i ∈ l ∨ reachedEnd s i = false → reachedEnd (l.foldl completeIfReached s) i = false := by
  induction l with
  | nil => exact fun h => ⟨h, .refl, fun i hi => hi.resolve_left (by simp)⟩
  | cons j l ih =>
    intro s h
    have hs : SchedSound (completeIfReached s j) ∧ SchedActs s (completeIfReached s j) ∧
        ∀ i, i = j ∨ reachedEnd s i = false → reachedEnd (completeIfReached s j) i = false := by
      unfold completeIfReached
      split
      · exact ⟨h.completeFade j, h.completeFade_acts j, fun i => h.completeFade_reached j i⟩
      · rename_i hj
        refine ⟨h, .refl, fun i hi => ?_⟩
        rcases hi with rfl | hi
        · simpa using hj
        · exact hi
    obtain ⟨sound, acts, reached⟩ := hs
    obtain ⟨sound', acts', reached'⟩ := ih sound
    refine ⟨sound', acts.trans acts', fun i hi => reached' i ?_⟩
    rcases hi with hi | hi
    · rcases List.mem_cons.mp hi with rfl | hi
      · exact .inr (reached i (.inl rfl))
      · exact .inl hi
    · exact .inr (reached i (.inr hi))

theorem SchedInv.fadesAct (h : SchedInv s) (view : View) (step : Stepping) : SchedInv (fadesAct view step s) := by
  obtain ⟨sound, -, reached⟩ := completions_sound (List.finRange 8) (h.sound.stepSlots view step)
  unfold Machine.fadesAct
  exact (schedInv_iff_sound.mpr ⟨sound, fun i => reached i (.inl (List.mem_finRange i))⟩).resettleZones _ _

/-! ### The lock loss -/

theorem SchedInv.allLost (h : SchedInv s) : SchedInv (allLost s) := by
  have a := h.sound.laws.allLost_acts
  have rest := h.sound.laws.allLost_rest
  refine h.events a (h.sound.acts a fun hq => ?_)
  exact absurd ((SchedActs.laws a h.sound.laws).queue_of_rest rest) hq

theorem SchedInv.lockLoss (h : SchedInv s) : SchedInv (zeroAllChains (schedLockLoss s)) := by
  rw [h.sound.laws.schedLockLoss_eq]
  exact (h.allLost.resettleZones true true).of_same ⟨by simp, by simp, by simp, fun _ => by simp, fun _ => .inl (by simp)⟩

/-! ### Every step -/

theorem schedInv_blocksReset (pins a tw o q) : SchedInv (State.blocksReset pins a tw o q) := by
  have switch (c : Chan) : (State.blocksReset pins a tw o q).sched.switch[c] = .steady 0 := by
    simp [State.blocksReset, Scheduler.reset]
  have slot (i : FadeSlot) : (State.blocksReset pins a tw o q).sched.slots[i] = none := by
    simp [State.blocksReset, Scheduler.reset]
  have queue : (State.blocksReset pins a tw o q).sched.queue = [] := rfl
  constructor
  case exponent =>
    intro z
    have : (State.blocksReset pins a tw o q).gain.zones.get z = ZoneRecord.reset := by cases z <;> rfl
    rw [this]
    decide
  all_goals simp_all [Switch.slot, Switch.waitingFor, Switch.steadyOn]

end Sys2Proof.Machine
end

section
/-! What the acts of the rows come to for the Page Scheduler and the Equaliser, so that an invariant of theirs is checked
against few cases. -/

namespace Sys2Proof.Machine

variable {s t u : State}

/-- All that the invariants of the Page Scheduler, the Equaliser and the disabled channels read is the same, the exponents
being the same or in range. -/
structure SamePages (s t : State) : Prop where
  sched : t.sched = s.sched
  equaliser : t.equaliser = s.equaliser
  delays : t.port.delays = s.port.delays
  out : ∀ c : Chan, t.channels[c].out = s.channels[c].out
  zone : ∀ c : Chan, t.channels[c].zone = s.channels[c].zone
  requested : ∀ z : Zone, (t.gain.zones.get z).requestedPage = (s.gain.zones.get z).requestedPage
  exponent : ∀ z : Zone, (t.gain.zones.get z).exponent = (s.gain.zones.get z).exponent ∨
    8 ≤ (t.gain.zones.get z).exponent ∧ (t.gain.zones.get z).exponent ≤ 13

theorem SamePages.refl (s : State) : SamePages s s :=
  ⟨rfl, rfl, rfl, fun _ => rfl, fun _ => rfl, fun _ => rfl, fun _ => .inl rfl⟩

theorem SamePages.trans (h : SamePages s t) (g : SamePages t u) : SamePages s u :=
  ⟨g.sched.trans h.sched, g.equaliser.trans h.equaliser, g.delays.trans h.delays, fun c => (g.out c).trans (h.out c),
    fun c => (g.zone c).trans (h.zone c), fun z => (g.requested z).trans (h.requested z),
    fun z => (g.exponent z).elim (fun e => by rw [e]; exact h.exponent z) .inr⟩

theorem SamePages.sameSched (e : SamePages s t) : SameSched s t :=
  ⟨by rw [e.sched], by rw [e.sched], by rw [e.sched], e.out, e.exponent⟩

/-- The same records and zones. -/
theorem SamePages.of_eq (hs : t.sched = s.sched) (he : t.equaliser = s.equaliser) (hp : t.port.delays = s.port.delays)
    (hc : t.channels = s.channels) (hz : t.gain.zones = s.gain.zones) : SamePages s t :=
  ⟨hs, he, hp, fun _ => by rw [hc], fun _ => by rw [hc], fun _ => by rw [hz], fun _ => .inl (by rw [hz])⟩

theorem samePages_setZone (z : Zone) (r : ZoneRecord) (hr : r.requestedPage = (s.gain.zones.get z).requestedPage)
    (he : r.exponent = (s.gain.zones.get z).exponent ∨ 8 ≤ r.exponent ∧ r.exponent ≤ 13) :
    SamePages s (setZone z r s) := by
  refine ⟨by simp, by simp, by simp, fun _ => by simp, fun _ => by simp, fun y => ?_, fun y => ?_⟩
  · rw [setZone_get]; split
    · subst_vars; exact hr
    · rfl
  · rw [setZone_get]; split
    · subst_vars; exact he
    · exact .inl rfl

theorem samePages_setRecord (c : Chan) (r : ChannelRecord) (ho : r.out = s.channels[c].out)
    (hz : r.zone = s.channels[c].zone) : SamePages s (setRecord c r s) := by
  have at' (d : Chan) : (setRecord c r s).channels[d] = if d = c then r else s.channels[d] := by
    rw [setRecord_channels, get_set]
  refine ⟨by simp, by simp, by simp, fun d => ?_, fun d => ?_, fun _ => by simp, fun _ => .inl (by simp)⟩
  · rw [at']; split
    · subst_vars; exact ho
    · rfl
  · rw [at']; split
    · subst_vars; exact hz
    · rfl

theorem samePages_recomputeUser (p) : SamePages s (recomputeUser p s) := .of_eq (by simp) (by simp) (by simp) (by simp) (by simp)
theorem samePages_recomputeSpeed (p) : SamePages s (recomputeSpeed p s) := .of_eq (by simp) (by simp) (by simp) (by simp) (by simp)
theorem samePages_recomputeMute (p) : SamePages s (recomputeMute p s) := .of_eq (by simp) (by simp) (by simp) (by simp) (by simp)
theorem samePages_recomputeDuck (z) : SamePages s (recomputeDuck z s) := .of_eq (by simp) (by simp) (by simp) (by simp) (by simp)

/-- What the owner of a command does to pages: nothing, a requested page reviewed, a change of the tracker's record, a
channel load, a section or a program loaded. -/
inductive PageAct (s : State) : State → Prop where
  | still {t : State} (same : SamePages s t) : PageAct s t
  | review (z : Zone) (v : State) (same : SamePages s v) : PageAct s (reviewPage z v)
  | event (r : SpeedTracker) : PageAct s (speedEvent r s)
  | load (c : Chan) (r : ChannelRecord) : PageAct s (loadRecord c r s)
  | coeffs (i : SectionId) (k : Coeffs) (unused : (s.equaliser.sections[i]).live = 0) :
      PageAct s { s with equaliser.sections :=
        s.equaliser.sections.set i { s.equaliser.sections[i] with valid := true, coeffs := k } }
  | program (p : Page) (c : Chan) (prog : Program) (short : prog.length ≤ 6)
      (valid : ∀ i ∈ prog, (s.equaliser.sections[i]).valid = true) (unused : pageInUse s p c = false) :
      PageAct s (setProgram p c prog s)

theorem storeOptions_exponent (o : ZoneOptionsWord) (r : ZoneRecord) :
    8 ≤ (storeOptions o r).exponent ∧ (storeOptions o r).exponent ≤ 13 := by
  simp only [storeOptions, clampNat]
  omega

theorem Owned.pageAct (ho : Owned s t) : PageAct s t := by
  cases ho with
  | options z o =>
    exact .review z _ ((samePages_setZone z (storeOptions o (s.gain.zones.get z)) rfl
      (.inr (storeOptions_exponent _ _))).trans
      ((samePages_recomputeSpeed _).trans (samePages_recomputeDuck _)))
  | reading m hm => exact .event _
  | policy => exact .event _
  | sdv z curve =>
    exact .review z _ ((samePages_setZone z (evalSdv s.speed.effective { s.gain.zones.get z with sdv := curve }) rfl
      (.inl rfl)).trans (samePages_recomputeSpeed _))
  | userPage z p => exact .review z _ (samePages_setZone z { s.gain.zones.get z with userPage := p } rfl (.inl rfl))
  | record c r => exact .load c r
  | coeffs i k unused => exact .coeffs i k unused
  | program p c prog short valid unused => exact .program p c prog short valid unused
  | trim c v =>
    exact .still ((samePages_setRecord c { s.channels[c] with trim := v } rfl rfl).trans (samePages_recomputeUser _))
  | volume z step curve =>
    exact .still ((samePages_setZone z { s.gain.zones.get z with step := step, curve := curve } rfl (.inl rfl)).trans
      ((samePages_recomputeUser _).trans (samePages_recomputeSpeed _)))
  | zoneMute z b =>
    exact .still ((samePages_setZone z { s.gain.zones.get z with mute := b } rfl (.inl rfl)).trans
      (samePages_recomputeMute _))
  | duck z b =>
    exact .still ((samePages_setZone z { s.gain.zones.get z with commandDuck := b } rfl (.inl rfl)).trans
      (samePages_recomputeDuck _))
  | nothing => exact .still (.refl s)
  | cabin cab => exact .still (.of_eq (by simp) (by simp) (by simp) (by simp) (by simp))
  | mute c b => exact .still (.of_eq (by simp) (by simp) (by simp) (by simp) (by simp))
  | pace | source | kinds | polled | roll | metersRead => exact .still (.of_eq rfl rfl rfl rfl rfl)

/-! ### An invariant of pages -/

/-- `Q` is kept, while the Page Scheduler's laws hold, by all that the rows do to pages. -/
structure KeptPages (Q : State → Prop) : Prop where
  same : ∀ s t, SamePages s t → Q s → Q t
  blocksReset : ∀ pins a tw o q, Q (State.blocksReset pins a tw o q)
  review : ∀ s a b, SchedInv s → Q s → Q (reviewPages a b s)
  load : ∀ s c r, SchedInv s → Q s → Q (loadRecord c r s)
  coeffs : ∀ s (i : SectionId) k, (s.equaliser.sections[i]).live = 0 → Q s →
    Q { s with equaliser.sections :=
      s.equaliser.sections.set i { s.equaliser.sections[i] with valid := true, coeffs := k } }
  program : ∀ s p c prog, prog.length ≤ 6 → (∀ i ∈ prog, (s.equaliser.sections[i]).valid = true) →
    pageInUse s p c = false → Q s → Q (setProgram p c prog s)
  lost : ∀ s, SchedInv s → Q s → Q (zeroAllChains (schedLockLoss s))
  emptied : ∀ s, Q s → Q { s with port.delays := Vector.replicate 24 Delay.empty }
  audio : ∀ s x r, SchedInv s → Q s → r.state = s → (∀ c : Chan, s.channels[c].out = none → x.view[c].out = none) →
    Q (audioAct x r).state
  fades : ∀ s view step, SchedInv s → Q s → Q (fadesAct view step s)
  completes : ∀ s i f, SchedInv s → Q s → s.sched.slots[i] = some f → Q (fadeCompletes i f s)

namespace KeptPages

variable {Q : State → Prop}

theorem speedEvent (K : KeptPages Q) (h : SchedInv s) (q : Q s) (r : SpeedTracker) : Q (speedEvent r s) := by
  unfold Machine.speedEvent handEffective
  split
  · let v : State := { setSpeed r s with gain.zones :=
      { a := evalSdv r.effective s.gain.zones.a, b := evalSdv r.effective s.gain.zones.b } }
    have e : SamePages s (recomputeSpeed allChannels v) := by
      refine SamePages.trans (t := v) ⟨rfl, rfl, rfl, fun _ => rfl, fun _ => rfl, fun z => ?_, fun z => ?_⟩
        (samePages_recomputeSpeed _)
      · cases z <;> rfl
      · cases z <;> exact .inl rfl
    exact K.review _ true true (h.of_same e.sameSched) (K.same _ _ e q)
  · exact K.same s _ (.of_eq rfl rfl rfl rfl rfl) q

theorem pageAct (K : KeptPages Q) (h : SchedInv s) (q : Q s) (a : PageAct s t) : Q t := by
  cases a with
  | still same => exact K.same _ _ same q
  | review z v same => exact K.review v _ _ (h.of_same same.sameSched) (K.same _ _ same q)
  | event r => exact K.speedEvent h q r
  | load c r => exact K.load s c r h q
  | coeffs i k unused => exact K.coeffs s i k unused q
  | program p c prog short valid unused => exact K.program s p c prog short valid unused q

end KeptPages

theorem SchedInv.pageAct (h : SchedInv s) (a : PageAct s t) : SchedInv t := by
  cases a with
  | still same => exact h.of_same same.sameSched
  | review z v same => exact (h.of_same same.sameSched).reviewPages _ _
  | event r => exact h.speedEvent r
  | load c r => exact h.loadRecord c r
  | coeffs | program => exact h.of_same (.of_eq rfl rfl rfl)

theorem samePages_notify (k : NoticeKind) : SamePages s (notify k s) :=
  .of_eq (by simp) (by simp) (by simp) (by simp) (by simp)

theorem samePages_takeDuckSample : SamePages s (takeDuckSample s) := by
  dsimp only [takeDuckSample]
  split
  · exact .of_eq (by simp) (by simp) (by simp) (by simp) (by simp)
  · exact .of_eq rfl rfl rfl rfl rfl

/-- No grant is due while the laws hold: a slot that is free says that no one waits (R132). -/
theorem SchedInv.no_grant (h : SchedInv s) {i : FadeSlot} {d : Chan} {rest : List Chan} (hq : s.sched.queue = d :: rest)
    (hi : s.sched.slots[i] = none) : False := by
  have := h.full (by rw [hq]; simp) i
  rw [hi] at this
  cases this

theorem sameSched_audioAct (x : FrameCtx) (r : FrameRun) : SameSched r.state (audioAct x r).state :=
  ⟨by simp [audioAct, storeAudio], by simp [audioAct, storeAudio], by simp [audioAct, storeAudio],
    fun _ => by simp [audioAct, storeAudio], fun _ => .inl (by simp [audioAct, storeAudio])⟩

/-- An invariant of pages is kept by every act the rows are made of, together with the Page Scheduler's laws. -/
theorem KeptPages.kept {Q : State → Prop} (K : KeptPages Q) : Kept fun s => SchedInv s ∧ Q s := by
  have same {s t : State} (h : SchedInv s ∧ Q s) (e : SamePages s t) : SchedInv t ∧ Q t :=
    ⟨h.1.of_same e.sameSched, K.same s t e h.2⟩
  have still {s t : State} (h : SchedInv s ∧ Q s) (hs : t.sched = s.sched) (he : t.equaliser = s.equaliser)
      (hp : t.port.delays = s.port.delays) (hc : t.channels = s.channels) (hz : t.gain.zones = s.gain.zones) :
      SchedInv t ∧ Q t := same h (.of_eq hs he hp hc hz)
  exact {
    blocksReset := fun _ _ _ _ _ => ⟨schedInv_blocksReset .., K.blocksReset ..⟩
    pins := fun _ _ h => still h rfl rfl rfl rfl rfl
    ringOut := fun _ _ h => still h rfl rfl rfl rfl rfl
    pending := fun _ _ h => still h rfl rfl rfl rfl rfl
    notify := fun _ _ h => same h (samePages_notify _)
    assembler := fun _ _ h => still h rfl rfl rfl rfl rfl
    sender := fun _ _ h => still h rfl rfl rfl rfl rfl
    address := fun _ _ _ h => still h rfl rfl rfl rfl rfl
    lock := fun _ _ _ h => still h rfl rfl rfl rfl rfl
    command := fun s z c h =>
      have a := (takeCommand_owned z s c).pageAct
      ⟨h.1.pageAct a, K.pageAct h.1 h.2 a⟩
    emptied := fun s h => by
      have e : SchedInv { s with port.delays := Vector.replicate 24 Delay.empty } := h.1.of_same (.of_eq rfl rfl rfl)
      exact still (s := { s with port.delays := Vector.replicate 24 Delay.empty }) ⟨e, K.emptied s h.2⟩ rfl rfl rfl rfl rfl
    lost := fun s h => ⟨h.1.lockLoss, K.lost s h.1 h.2⟩
    relocked := fun _ h => still h rfl rfl rfl rfl rfl
    audio := fun s x r h e hv => ⟨(e ▸ h.1 : SchedInv r.state).of_same (sameSched_audioAct x r), K.audio s x r h.1 h.2 e hv⟩
    meters := fun s _ _ h => still h (by simp [metersAct]) (by simp [metersAct]) (by simp [metersAct])
      (by simp [metersAct]) (by simp [metersAct])
    fades := fun s view step h => ⟨h.1.fadesAct view step, K.fades s view step h.1 h.2⟩
    completes := fun s i f h hf _ => ⟨(h.1.completeFade i).resettle _, K.completes s i f h.1 h.2 hf⟩
    grants := fun _ _ _ _ h hq hi => (h.1.no_grant hq hi).elim
    tick := fun _ _ h => still h rfl rfl rfl rfl rfl
    setLaneCount := fun _ _ _ h _ _ => still h rfl rfl rfl rfl rfl
    expiry := fun s h => by
      unfold expiry
      exact same ⟨h.1.speedEvent _, K.speedEvent h.1 h.2 _⟩ (samePages_notify _)
    countDown := fun _ _ h _ => still h rfl rfl rfl rfl rfl
    duckSample := fun _ h => same h samePages_takeDuckSample
    duckCount := fun _ _ h _ _ => still h rfl rfl rfl rfl rfl }

/-- The Page Scheduler's laws alone. -/
theorem keptSched : Kept fun s => SchedInv s ∧ True :=
  KeptPages.kept
    { same := fun _ _ _ _ => trivial
      blocksReset := fun _ _ _ _ _ => trivial
      review := fun _ _ _ _ _ => trivial
      load := fun _ _ _ _ _ => trivial
      coeffs := fun _ _ _ _ _ => trivial
      program := fun _ _ _ _ _ _ _ _ => trivial
      lost := fun _ _ _ => trivial
      emptied := fun _ _ => trivial
      audio := fun _ _ _ _ _ _ _ => trivial
      fades := fun _ _ _ _ _ => trivial
      completes := fun _ _ _ _ _ _ => trivial }

/-- Settles O55: the laws are kept by every act the rows are made of, each event of the Page Scheduler being a sequence of
its acts. -/
theorem schedulerKept : Obligations.SchedulerKept := fun _ _ h e => (step_keeps keptSched ⟨h, trivial⟩ e).1

end Sys2Proof.Machine
end

section
/-! Every channel stays on its way to its zone's requested page, and the settled flags stay true (R144). -/

namespace Sys2Proof.Machine

variable {s t u : State}

/-! ### Flags -/

theorem steadyOn_eq_some {w : Switch} {p : Page} : w.steadyOn = some p ↔ w = .steady p := by
  cases w <;> simp [Switch.steadyOn]

/-- A zone's flag reads the channels that name it, and its requested page. -/
theorem isSettled_congr {z : Zone} (hz : (t.gain.zones.get z).requestedPage = (s.gain.zones.get z).requestedPage)
    (hc : ∀ c : Chan, t.channels[c].zone = z ↔ s.channels[c].zone = z)
    (hs : ∀ c : Chan, s.channels[c].zone = z → (t.sched.switch[c]).steadyOn = (s.sched.switch[c]).steadyOn) :
    isSettled t z = isSettled s z := by
  rw [Bool.eq_iff_iff, isSettled_iff, isSettled_iff, hz]
  refine forall_congr' fun c => ?_
  rw [hc]
  refine imp_congr_right fun h => ?_
  rw [← steadyOn_eq_some, hs c h, steadyOn_eq_some]

theorem resettleZones_switch' (a b : Bool) : (resettleZones a b s).sched.switch = s.sched.switch :=
  (resettleZones_spec a b s).1

theorem isSettled_resettleZones (a b : Bool) (z : Zone) : isSettled (resettleZones a b s) z = isSettled s z := by
  have g := onlyPages_resettleZones (s := s) a b
  refine isSettled_congr (by rw [g.gain]) (fun c => by rw [g.channels]) fun c _ => ?_
  rw [resettleZones_switch']

/-- The zone is one that `a` or `b` picks. -/
def pick (a b : Bool) : Zone → Bool
  | .a => a
  | .b => b

theorem resettleZones_settled (a b : Bool) (z : Zone) : (resettleZones a b s).sched.settled.get z =
    if pick a b z = true then isSettled s z else s.sched.settled.get z := by
  rw [(resettleZones_spec a b s).2.1 z]
  cases z <;> rfl

theorem asked_eq (a b : Bool) (s : State) (c : Chan) : asked a b s c = pick a b s.channels[c].zone := by
  unfold asked pick
  cases s.channels[c].zone <;> rfl

theorem SchedAct.settled (a : SchedAct s t) : t.sched.settled = s.sched.settled := by
  cases a with
  | carry i f holds =>
    have := (eqComplete_only (s := s) f.channel f.old).1
    simp [carryOver, setSlot, setSwitch, this]
  | start => rfl
  | switch => rfl
  | stay => rfl
  | join => rfl
  | wait => rfl
  | redirect => rfl

theorem SchedActs.settled (a : SchedActs s t) : t.sched.settled = s.sched.settled := by
  induction a with
  | refl => rfl
  | tail _ a ih => exact a.settled.trans ih

/-! ### After an event and the flags of the zones it touched -/

/-- The laws of R144 hold again once the flags of the zones an event touched are evaluated anew, where the event leaves
every channel on its way and changes no channel's rest outside those zones. -/
theorem PagesInv.resettled {a b : Bool} (way : ∀ c : Chan, destination t c = (t.gain.zones.get t.channels[c].zone).requestedPage)
    (still : ∀ z, pick a b z = false → t.sched.settled.get z = isSettled t z) : PagesInv (resettleZones a b t) := by
  have g := onlyPages_resettleZones (s := t) a b
  refine ⟨fun c => ?_, fun z => ?_⟩
  · rw [destination_congr (course_resettleZones a b c), g.gain, g.channels]
    exact way c
  · rw [resettleZones_settled, isSettled_resettleZones]
    split
    · rfl
    · exact still z (Bool.not_eq_true _ ▸ ‹¬ _›)

theorem destination_of_same (hs : t.sched = s.sched) (c : Chan) : destination t c = destination s c := by
  unfold destination; rw [hs]

theorem PagesInv.of_same (h : PagesInv s) (hs : t.sched = s.sched)
    (hc : ∀ c : Chan, t.channels[c].zone = s.channels[c].zone)
    (hz : ∀ z : Zone, (t.gain.zones.get z).requestedPage = (s.gain.zones.get z).requestedPage) : PagesInv t := by
  refine ⟨fun c => ?_, fun z => ?_⟩
  · rw [destination_of_same hs, hc, hz]
    exact h.onTheWay c
  · rw [hs, h.settled, isSettled_congr (hz z) (fun c => by rw [hc]) fun c _ => by rw [hs]]

theorem resettle_eq (z : Zone) : resettle z s = resettleZones (z == .a) (z == .b) s := by cases z <;> rfl

theorem pick_beq (z y : Zone) : pick (z == .a) (z == .b) y = false ↔ y ≠ z := by cases z <;> cases y <;> simp [pick]

/-! ### Sets of requests -/

theorem requestIfIn_others (h : SchedLaws s) (a b : Bool) (c : Chan) : OthersOn c s (requestIfIn a b s c) := by
  rw [requestIfIn_eq]
  split
  · exact h.pageRequest_others _ _
  · exact .refl _ _

/-- A set of requests sends the channels it asks to their zones' requested pages, and leaves the courses of the others. -/
theorem requests_courses (a b : Bool) (l : List Chan) (hl : l.Nodup) : ∀ {s : State}, SchedLaws s →
    (∀ c : Chan, s.channels[c].out = none → Rests s c) → ∀ d : Chan,
    (d ∈ l → asked a b s d = true →
      destination (l.foldl (requestIfIn a b) s) d = (s.gain.zones.get s.channels[d].zone).requestedPage) ∧
    (d ∉ l ∨ asked a b s d = false → course (l.foldl (requestIfIn a b) s) d = course s d) := by
  induction l with
  | nil => exact fun _ _ d => ⟨fun hd => absurd hd (by simp), fun _ => rfl⟩
  | cons c l ih =>
    intro s h hr d
    obtain ⟨hcl, hl⟩ := List.nodup_cons.mp hl
    have act := requestIfIn_acts h a b c
    have only := SchedActs.onlyPages act
    have same : asked a b (requestIfIn a b s c) d = asked a b s d := by rw [asked_eq, asked_eq, only.channels]
    obtain ⟨there, stays⟩ := ih hl (SchedActs.laws act h) (fun e ho => by
      rw [only.channels] at ho; exact (SchedActs.rests act e ho (hr e ho)).2) d
    rw [same] at there stays
    rw [only.gain, only.channels] at there
    rw [List.foldl_cons]
    by_cases hd : d = c
    · subst hd
      rw [stays (.inl hcl)]
      refine ⟨fun _ hask => ?_, fun hn => ?_⟩
      · rw [destination_congr (stays (.inl hcl)), requestIfIn_eq, if_pos hask]
        exact h.pageRequest_destination (hr d) _
      · rw [requestIfIn_eq, if_neg]
        rw [hn.resolve_left (fun hn => hn List.mem_cons_self)]
        exact Bool.false_ne_true
    · have others := requestIfIn_others h a b c d hd
      refine ⟨fun hm hask => there ((List.mem_cons.mp hm).resolve_left hd) hask, fun hn => ?_⟩
      rw [stays (hn.imp_left fun hn hm => hn (List.mem_cons_of_mem _ hm)), others]

/-- The state after a set of requests, before the flags. -/
def requested (a b : Bool) (s : State) : State := (List.finRange 24).foldl (requestIfIn a b) s

theorem handRequests_eq (a b : Bool) : handRequests a b s = resettleZones a b (requested a b s) := rfl

theorem SchedInv.requested_course (h : SchedInv s) (a b : Bool) (d : Chan) :
    (asked a b s d = true →
      destination (requested a b s) d = (s.gain.zones.get s.channels[d].zone).requestedPage) ∧
    (asked a b s d = false → course (requested a b s) d = course s d) := by
  obtain ⟨there, stays⟩ := requests_courses a b (List.finRange 24) (List.nodup_finRange 24) h.sound.laws h.sound.resting d
  exact ⟨there (List.mem_finRange d), fun hn => stays (.inr hn)⟩

theorem requested_onlyPages (a b : Bool) : OnlyPagesMove s (requested a b s) :=
  OnlyPagesMove.foldl _ (onlyPages_requestIfIn a b) _ s

theorem SchedLaws.requested_acts (h : SchedLaws s) (a b : Bool) : SchedActs s (requested a b s) := requests_acts a b _ h

/-- The laws of R144 after a set of requests for the zones whose requested page changed from `s` to `v`. -/
theorem PagesInv.handRequests (h : PagesInv s) {v : State} (hv : SchedInv v) {a b : Bool} (hsched : v.sched = s.sched)
    (hch : v.channels = s.channels) (hz : ∀ z, pick a b z = false →
      (v.gain.zones.get z).requestedPage = (s.gain.zones.get z).requestedPage) : PagesInv (handRequests a b v) := by
  have g := requested_onlyPages (s := v) a b
  have acts := hv.sound.laws.requested_acts a b
  rw [handRequests_eq]
  refine PagesInv.resettled (fun c => ?_) fun z hzn => ?_
  · obtain ⟨there, stays⟩ := hv.requested_course a b c
    rw [g.gain, g.channels]
    cases hask : asked a b v c with
    | true => exact there hask
    | false =>
      rw [destination_congr (stays hask), destination_of_same hsched,
        hz _ (by rw [← asked_eq]; exact hask), h.onTheWay c, hch]
  · rw [SchedActs.settled acts, hsched, h.settled]
    refine (isSettled_congr (by rw [g.gain]; exact hz z hzn) (fun c => by rw [g.channels, hch]) fun c hc => ?_).symm
    have hask : asked a b v c = false := by rw [asked_eq, hch, hc]; exact hzn
    rw [course_switch ((hv.requested_course a b c).2 hask), hsched]

theorem PagesInv.reviewPages (hs : SchedInv s) (h : PagesInv s) (a b : Bool) : PagesInv (reviewPages a b s) := by
  have hv : SchedInv { s with gain.zones := reviewedZones a b s.gain.zones } :=
    hs.of_same ⟨rfl, rfl, rfl, fun _ => rfl, fun z => .inl (reviewedZones_exponent a b s.gain.zones z)⟩
  dsimp only [Machine.reviewPages]
  split
  · refine h.handRequests hv rfl rfl fun z hz => ?_
    cases z
    · exact bne_eq_false_iff_eq.mp hz
    · exact bne_eq_false_iff_eq.mp hz
  · rename_i hn
    simp only [Bool.or_eq_true, bne_iff_ne, ne_eq, not_or, not_not] at hn
    refine h.of_same rfl (fun _ => rfl) fun z => ?_
    cases z
    · exact hn.1
    · exact hn.2

/-! ### Completions -/

/-- An event that leaves every channel on its way, and touches the rest of no channel outside the zones evaluated anew. -/
theorem PagesInv.ways (h : PagesInv s) {p : Chan → Prop} (w : SameWays p s t) (g : OnlyPagesMove s t)
    (hset : t.sched.settled = s.sched.settled) {a b : Bool} (hp : ∀ c : Chan, p c → pick a b s.channels[c].zone = true) :
    PagesInv (resettleZones a b t) := by
  refine PagesInv.resettled (fun c => ?_) fun z hz => ?_
  · rw [(w c).1, g.gain, g.channels]; exact h.onTheWay c
  · rw [hset, h.settled]
    refine (isSettled_congr (by rw [g.gain]) (fun c => by rw [g.channels]) fun c hc => ?_).symm
    refine (w c).2 fun hpc => ?_
    exact absurd (hp c hpc) (by rw [hc, hz]; exact Bool.false_ne_true)

theorem PagesInv.fadeCompletes (hs : SchedInv s) (h : PagesInv s) {i : FadeSlot} {f : Fade}
    (hf : s.sched.slots[i] = some f) : PagesInv (fadeCompletes i f s) := by
  unfold Machine.fadeCompletes
  rw [resettle_eq]
  refine h.ways (hs.sound.laws.completeFade_ways hs.sound.resting hf) (onlyPages_completeFade i)
    (SchedActs.settled (hs.sound.completeFade_acts i)) ?_
  rintro c rfl
  cases s.channels[f.channel].zone <;> rfl

end Sys2Proof.Machine
end

section
/-! The laws of R144 through a frame's fades, a channel load and the lock loss. -/

namespace Sys2Proof.Machine

variable {s t u : State}

/-! ### The fades of a frame -/

theorem grantHead_slot (h : SchedLaws s) {i j : FadeSlot} (hj : j ≠ i) :
    (grantHead i s).sched.slots[j] = s.sched.slots[j] := by
  cases hq : s.sched.queue with
  | nil => rw [grantHead_nil hq]
  | cons d rest =>
    obtain ⟨p, q, hd⟩ := h.head_waits hq
    rw [grantHead_cons hq hd, (start_moved ..).slots, get_set, if_neg hj]

theorem SchedSound.completeFade_slot (h : SchedSound s) {i j : FadeSlot} (hj : j ≠ i) :
    (Machine.completeFade i s).sched.slots[j] = s.sched.slots[j] := by
  cases hf : s.sched.slots[i] with
  | none => unfold Machine.completeFade; rw [hf]
  | some f => rw [completeFade_eq hf, grantHead_slot (h.carried hf) hj, carried_slots, get_set, if_neg hj]

/-- The channel is in a slot of the list whose fade has reached its length. -/
def Arriving (l : List FadeSlot) (s : State) (c : Chan) : Prop :=
  ∃ i ∈ l, reachedEnd s i = true ∧ ∃ f, s.sched.slots[i] = some f ∧ f.channel = c

theorem completions_ways (l : List FadeSlot) (hl : l.Nodup) : ∀ {s : State}, SchedSound s →
    SameWays (Arriving l s) s (l.foldl completeIfReached s) := by
  induction l with
  | nil => exact fun _ => .refl _ _
  | cons i l ih =>
    intro s h
    obtain ⟨hil, hl⟩ := List.nodup_cons.mp hl
    rw [List.foldl_cons]
    have first : SchedSound (completeIfReached s i) ∧
        SameWays (Arriving (i :: l) s) s (completeIfReached s i) ∧
        ∀ j ∈ l, (completeIfReached s i).sched.slots[j] = s.sched.slots[j] := by
      unfold completeIfReached
      split
      · rename_i hr
        refine ⟨h.completeFade i, ?_, fun j hj => h.completeFade_slot fun e => hil (e ▸ hj)⟩
        cases hf : s.sched.slots[i] with
        | none => simp [reachedEnd, hf] at hr
        | some f =>
          refine (h.laws.completeFade_ways h.resting hf).mono fun d hd => ?_
          exact ⟨i, List.mem_cons_self, hr, f, hf, hd.symm⟩
      · exact ⟨h, .refl _ _, fun _ _ => rfl⟩
    obtain ⟨sound, ways, slots⟩ := first
    refine ways.trans ((ih hl sound).mono ?_)
    rintro c ⟨j, hj, hr, f, hf, hc⟩
    rw [slots j hj] at hf
    refine ⟨j, List.mem_cons_of_mem _ hj, ?_, f, hf, hc⟩
    unfold reachedEnd at hr ⊢
    rwa [slots j hj] at hr

theorem SameButProgress.destination (h : SameButProgress s t) (hs : t.sched.switch = s.sched.switch) (c : Chan) :
    destination t c = Machine.destination s c := by
  unfold Machine.destination
  rw [hs]
  cases s.sched.switch[c] with
  | steady p => rfl
  | queued p q => rfl
  | fading p i =>
    obtain ⟨n, hn⟩ := h i
    simp only [hn]
    cases s.sched.slots[i] <;> rfl

theorem completingIn_eq_true {z : Zone} (c : Chan) (hc : Arriving (List.finRange 8) s c) (hz : s.channels[c].zone = z) :
    completingIn s z = true := by
  obtain ⟨i, hi, hr, f, hf, rfl⟩ := hc
  unfold completingIn
  refine List.any_eq_true.mpr ⟨i, hi, ?_⟩
  rw [hr, hf]
  simpa using hz

theorem PagesInv.fadesAct (hs : SchedInv s) (h : PagesInv s) (view : View) (step : Stepping) :
    PagesInv (fadesAct view step s) := by
  have sound := hs.sound.stepSlots view step
  have stepped : PagesInv (stepSlots view step s) := by
    refine ⟨fun c => ?_, fun z => ?_⟩
    · rw [(stepSlots_slot view step).destination rfl]
      exact h.onTheWay c
    · exact h.settled z
  have ways := completions_ways (List.finRange 8) (List.nodup_finRange 8) sound
  obtain ⟨-, acts, -⟩ := completions_sound (List.finRange 8) sound
  unfold Machine.fadesAct
  refine stepped.ways ways (SchedActs.onlyPages acts) (SchedActs.settled acts) fun c hc => ?_
  have done := completingIn_eq_true c hc rfl
  cases hz : (stepSlots view step s).channels[c].zone <;> rw [hz] at done <;> exact done

/-! ### The lock loss -/

theorem PagesInv.lockLoss (hs : SchedInv s) (h : PagesInv s) : PagesInv (zeroAllChains (schedLockLoss s)) := by
  have acts := hs.sound.laws.allLost_acts
  have g := SchedActs.onlyPages acts
  refine PagesInv.of_same (s := schedLockLoss s) ?_ (by simp) (fun _ => by simp) (fun _ => by simp)
  rw [hs.sound.laws.schedLockLoss_eq]
  refine PagesInv.resettled (fun c => ?_) fun z hz => by cases z <;> cases hz
  rw [destination_steady (hs.sound.laws.allLost_switch c), g.gain, g.channels]
  exact h.onTheWay c

/-! ### A channel load -/

/-- From `s` to `t` every channel but `c` stays on its way, and as STEADY as it was. -/
def WaysBut (c : Chan) (s t : State) : Prop :=
  ∀ d : Chan, d ≠ c → destination t d = destination s d ∧ (t.sched.switch[d]).steadyOn = (s.sched.switch[d]).steadyOn

theorem OthersOn.waysBut {c : Chan} (h : OthersOn c s t) : WaysBut c s t :=
  fun d hd => ⟨destination_congr (h d hd), by rw [course_switch (h d hd)]⟩

theorem SameWays.waysBut {c : Chan} (h : SameWays (fun d => d = c) s t) : WaysBut c s t :=
  fun d hd => ⟨(h d).1, (h d).2 hd⟩

theorem WaysBut.trans {c : Chan} (h : WaysBut c s t) (g : WaysBut c t u) : WaysBut c s u :=
  fun d hd => ⟨(g d hd).1.trans (h d hd).1, (g d hd).2.trans (h d hd).2⟩

theorem waysBut_storeRecord (c : Chan) (r : ChannelRecord) : WaysBut c s (storeRecord c r s) := fun d _ =>
  ⟨destination_of_same (by simp) d, by rw [storeRecord_sched]⟩

/-- The laws of R144 after a load whose page acts have been done, once the flags are evaluated anew. -/
theorem PagesInv.resettleLoad (h : PagesInv s) {c : Chan} {r : ChannelRecord} (w : WaysBut c s t)
    (g : OnlyPagesMove (storeRecord c r s) t) (hset : t.sched.settled = s.sched.settled)
    (hc : destination t c = (s.gain.zones.get r.zone).requestedPage) :
    PagesInv (resettleLoad c s.channels[c].zone t) := by
  have chan (d : Chan) : t.channels[d] = if d = c then r else s.channels[d] := by rw [g.channels, storeRecord_at]
  have gain : t.gain.zones = s.gain.zones := by rw [g.gain, storeRecord_gain_zones]
  unfold Machine.resettleLoad
  refine PagesInv.resettled (fun d => ?_) fun z hz => ?_
  · rw [gain, chan]
    split
    · subst_vars; exact hc
    · rw [(w d ‹_›).1]; exact h.onTheWay d
  · have hz' : s.channels[c].zone ≠ z ∧ r.zone ≠ z := by
      rw [chan, if_pos rfl] at hz
      cases z <;> simpa [pick] using hz
    rw [hset, h.settled]
    refine (isSettled_congr (by rw [gain]) (fun d => ?_) fun d hd => ?_).symm
    · rw [chan]
      split
      · subst_vars; exact ⟨fun e => absurd e hz'.2, fun e => absurd e hz'.1⟩
      · exact Iff.rfl
    · refine (w d ?_).2
      rintro rfl
      exact hz'.1 hd

/-- What the page acts of a load hand to the flags: the others on their way, the channel on its new zone's page. -/
structure LoadedPages (c : Chan) (r : ChannelRecord) (s t : State) : Prop where
  ways : WaysBut c s t
  only : OnlyPagesMove (storeRecord c r s) t
  settled : t.sched.settled = s.sched.settled
  way : destination t c = (s.gain.zones.get r.zone).requestedPage

theorem LoadedPages.inv {c : Chan} {r : ChannelRecord} (g : LoadedPages c r s t) (h : PagesInv s) :
    PagesInv (Machine.resettleLoad c s.channels[c].zone t) := h.resettleLoad g.ways g.only g.settled g.way

theorem loadedPages_page {c : Chan} {r : ChannelRecord} (g : OnlyPagesMove (storeRecord c r s) t) :
    (t.gain.zones.get t.channels[c].zone).requestedPage = (s.gain.zones.get r.zone).requestedPage := by
  rw [g.gain, g.channels, storeRecord_gain_zones, storeRecord_at, if_pos rfl]

/-- A disable, with the instant switch of a zone move (R139, R141). -/
theorem loaded_disabled_pages (hs : SchedInv s) (h : PagesInv s) (c : Chan) (r : ChannelRecord) :
    LoadedPages c r s (if (s.channels[c].zone != r.zone) = true
      then askZonePage requestDisabled c (schedDisable c (storeRecord c r s)) else schedDisable c (storeRecord c r s)) := by
  have d := hs.disabling c r
  have acts := d.laws.schedDisable_acts c d.resting
  have only : OnlyPagesMove (storeRecord c r s) (schedDisable c (storeRecord c r s)) := onlyPages_schedDisable c
  obtain ⟨ways, rest⟩ := d.laws.schedDisable_ways c
  have waysS := (waysBut_storeRecord (s := s) c r).trans ways.waysBut
  have setS : (schedDisable c (storeRecord c r s)).sched.settled = s.sched.settled := by
    rw [SchedActs.settled acts, storeRecord_sched]
  split
  · have l := SchedActs.laws acts d.laws
    have asks := l.requestDisabled_acts c ((s.gain.zones.get r.zone).requestedPage)
    unfold askZonePage
    rw [loadedPages_page only]
    exact ⟨waysS.trans (requestDisabled_others c _).waysBut, only.trans (onlyPages_requestDisabled c _),
      (SchedActs.settled asks).trans setS,
      destination_steady (requestDisabled_switch (by rw [Rests, rest]; rfl) _)⟩
  · rename_i hz
    have hz : s.channels[c].zone = r.zone := by simpa using hz
    refine ⟨waysS, only, setS, ?_⟩
    rw [destination_steady rest, destination_of_same (s := s) (storeRecord_sched ..), h.onTheWay, hz]

/-- An enable, with the instant switch of a zone move and the page request (R140, R141). -/
theorem loaded_enabled_pages (hs : SchedInv s) (c : Chan) (r : ChannelRecord) (hr : r.out ≠ none) :
    LoadedPages c r s (askZonePage requestEnabled c (if (s.channels[c].zone != r.zone) = true
      then askZonePage requestDisabled c (storeRecord c r s) else storeRecord c r s)) := by
  have g : SchedInv (storeRecord c r s) := hs.storeRecord fun ho => absurd ho hr
  have finish {v : State} (hv : SchedInv v) (w : WaysBut c s v) (only : OnlyPagesMove (storeRecord c r s) v)
      (set' : v.sched.settled = s.sched.settled) : LoadedPages c r s (askZonePage requestEnabled c v) := by
    have hc : v.channels[c].out ≠ none := by rw [only.channels, storeRecord_at, if_pos rfl]; exact hr
    unfold askZonePage
    rw [loadedPages_page only]
    exact ⟨w.trans (hv.sound.laws.requestEnabled_others c _).waysBut, only.trans (onlyPages_requestEnabled c _),
      (SchedActs.settled (requestEnabled_acts hc _)).trans set', hv.sound.laws.requestEnabled_destination c _⟩
  have stored : (storeRecord c r s).sched.settled = s.sched.settled := by rw [storeRecord_sched]
  split
  · exact finish (g.requestDisabled c _) ((waysBut_storeRecord c r).trans (requestDisabled_others c _).waysBut)
      (onlyPages_requestDisabled c _) ((SchedActs.settled (g.sound.laws.requestDisabled_acts c _)).trans stored)
  · exact finish g (waysBut_storeRecord c r) (.refl _) stored

/-- A zone move with the enabled state kept (R27, R141). -/
theorem loaded_moved_pages (hs : SchedInv s) (c : Chan) (r : ChannelRecord) (hr : r.out = none → Rests s c) :
    LoadedPages c r s (askZonePage pageRequest c (storeRecord c r s)) := by
  have g : SchedInv (storeRecord c r s) := hs.storeRecord hr
  have stored : (storeRecord c r s).sched.settled = s.sched.settled := by rw [storeRecord_sched]
  unfold askZonePage
  rw [loadedPages_page (.refl _)]
  exact ⟨(waysBut_storeRecord c r).trans (g.sound.laws.pageRequest_others c _).waysBut, onlyPages_pageRequest c _,
    (SchedActs.settled (g.sound.laws.pageRequest_acts c _)).trans stored,
    g.sound.laws.pageRequest_destination (fun ho => g.sound.resting c ho) _⟩

theorem PagesInv.loadRecord (hs : SchedInv s) (h : PagesInv s) (c : Chan) (r : ChannelRecord) :
    PagesInv (loadRecord c r s) := by
  have plain (hz : ¬ (s.channels[c].zone != r.zone) = true) : PagesInv (storeRecord c r s) := by
    have hz : s.channels[c].zone = r.zone := by simpa using hz
    refine h.of_same (by simp) (fun d => ?_) (fun _ => by simp)
    rw [storeRecord_at]
    split
    · subst_vars; exact hz.symm
    · rfl
  dsimp only [Machine.loadRecord]
  split
  · exact ((loaded_disabled_pages hs h c r).inv h).of_same rfl (fun _ => rfl) (fun _ => rfl)
  · rename_i hr
    exact (loaded_enabled_pages hs c r (Option.isSome_iff_ne_none.mp hr)).inv h
  · rename_i hr
    split
    · exact (loaded_moved_pages hs c r fun ho => absurd ho (Option.isSome_iff_ne_none.mp hr)).inv h
    · exact plain ‹_›
  · rename_i ho hr
    split
    · refine (loaded_moved_pages hs c r fun _ => hs.sound.resting c ?_).inv h
      exact Option.not_isSome_iff_eq_none.mp (by rw [ho]; exact Bool.false_ne_true)
    · exact plain ‹_›

/-! ### Every step -/

theorem keptPages_pages : KeptPages PagesInv where
  same _ _ e h := h.of_same e.sched e.zone e.requested
  blocksReset pins a tw o q := by
    have switch (c : Chan) : (State.blocksReset pins a tw o q).sched.switch[c] = .steady 0 := by
      simp [State.blocksReset, Scheduler.reset]
    have page (z : Zone) : ((State.blocksReset pins a tw o q).gain.zones.get z).requestedPage = 0 := by cases z <;> rfl
    refine ⟨fun c => ?_, fun z => ?_⟩
    · rw [destination_steady (switch c), page]
    · have : isSettled (State.blocksReset pins a tw o q) z = true :=
        (isSettled_iff _ z).mpr fun c _ => by rw [switch, page]
      rw [this]
      cases z <;> rfl
  review s a b hs h := h.reviewPages hs a b
  load s c r hs h := h.loadRecord hs c r
  coeffs _ _ _ _ h := h.of_same rfl (fun _ => rfl) (fun _ => rfl)
  program _ _ _ _ _ _ _ h := h.of_same rfl (fun _ => rfl) (fun _ => rfl)
  lost s hs h := h.lockLoss hs
  emptied _ h := h.of_same rfl (fun _ => rfl) (fun _ => rfl)
  audio s x r _ h e _ := by
    subst e
    exact h.of_same (by simp [audioAct, storeAudio]) (fun _ => by simp [audioAct, storeAudio])
      (fun _ => by simp [audioAct, storeAudio])
  fades s view step hs h := h.fadesAct hs view step
  completes s i f hs h hf := h.fadeCompletes hs hf

/-- Settles O56: every event leaves the channels on their way, and evaluates anew the flags of the zones it touches. -/
theorem pagesKept : Obligations.PagesKept := fun _ _ hs h e => (step_keeps keptPages_pages.kept ⟨hs, h⟩ e).2

end Sys2Proof.Machine
end

section
/-! The audio of a frame, channel by channel, and disabled channels, which stay silent (R25, R26, R30). -/

namespace Sys2Proof.Machine

variable {s t u : State}

/-! ### What the audio stores -/

/-- The run of channel `c` in the audio of a frame. -/
def runOf (x : FrameCtx) (s : State) (c : Chan) : ChannelRun :=
  runChannel s x.view x.currents (sourceSamples s x.slots) (fadeOf s x.step c) c

theorem runAll_at (view : View) (cur : LaneValues) (step : Stepping) (taken : Vector Sample 8) (c : Chan) :
    (runAll s view cur step taken)[c] =
      if view[c].out.isSome then some (runChannel s view cur taken (fadeOf s step c) c) else none := by
  simp [runAll]

theorem audioAct_runs (x : FrameCtx) (r : FrameRun) (c : Chan) : (audioAct x r).runs[c] =
    if x.view[c].out.isSome then some (runOf x r.state c) else none := runAll_at ..

theorem delaysAfter_at (runs : Runs) (c : Chan) : (delaysAfter s runs)[c] =
    (runs[c]).elim s.port.delays[c] fun r => { older := s.port.delays[c].newer, newer := some r.out } := by
  simp only [delaysAfter, Fin.getElem_fin, Vector.getElem_ofFn]
  cases runs[c.val] <;> rfl

theorem audioAct_delays (x : FrameCtx) (r : FrameRun) (c : Chan) : (audioAct x r).state.port.delays[c] =
    if x.view[c].out.isSome then { older := r.state.port.delays[c].newer, newer := some (runOf x r.state c).out }
    else r.state.port.delays[c] := by
  have : (audioAct x r).state.port.delays[c] = (delaysAfter r.state (audioAct x r).runs)[c] := by
    simp [audioAct, storeAudio]
  rw [this, delaysAfter_at, audioAct_runs]
  split <;> rfl

theorem audioAct_active (x : FrameCtx) (r : FrameRun) (c : Chan) : (audioAct x r).state.equaliser.active[c] =
    if x.view[c].out.isSome then (runOf x r.state c).active else r.state.equaliser.active[c] := by
  have : (audioAct x r).state.equaliser.active[c] =
      ((audioAct x r).runs[c]).elim r.state.equaliser.active[c] ChannelRun.active := by
    simp [audioAct, storeAudio, activeAfter]
  rw [this, audioAct_runs]
  split <;> rfl

theorem audioAct_target (x : FrameCtx) (r : FrameRun) (c : Chan) : (audioAct x r).state.equaliser.target[c] =
    if x.view[c].out.isSome then (runOf x r.state c).target else r.state.equaliser.target[c] := by
  have : (audioAct x r).state.equaliser.target[c] =
      ((audioAct x r).runs[c]).elim r.state.equaliser.target[c] ChannelRun.target := by
    simp [audioAct, storeAudio, targetAfter]
  rw [this, audioAct_runs]
  split <;> rfl

/-! ### Silence -/

/-- The chain of channel `c` has zero history (R25). -/
def Silent (s : State) (c : Chan) : Prop := ∀ h ∈ s.equaliser.active[c], h = Position.zero

theorem disabledInv_iff : DisabledInv s ↔
    ∀ c : Chan, s.channels[c].out = none → s.port.delays[c] = Delay.empty ∧ Silent s c :=
  ⟨fun h c ho => ⟨h.delay c ho, h.silent c ho⟩, fun h => ⟨fun c ho => (h c ho).1, fun c ho => (h c ho).2⟩⟩

theorem mem_zeroHistory {l : Chain} {h : Position} (hh : h ∈ zeroHistory l) : h = Position.zero :=
  List.eq_of_mem_replicate hh

theorem setActive_at (c d : Chan) (l : Chain) :
    (setActiveChain c l s).equaliser.active[d] = if d = c then l else s.equaliser.active[d] := get_set _ _ _ _

theorem instantSwitch_active (c d : Chan) (p q : Page) : (instantSwitch c p q s).equaliser.active[d] =
    if d = c then zeroChain (programOf s q c) else s.equaliser.active[d] := by
  unfold instantSwitch eqSwitch
  rw [setActive_at]
  simp [programOf, addLive, subLive, setSwitch]

theorem eqComplete_active (c d : Chan) (p : Page) : (eqComplete c p s).equaliser.active[d] =
    if d = c then (s.equaliser.target[c]).getD s.equaliser.active[c] else s.equaliser.active[d] := by
  have sub : (subLive (programOf s p c) s).equaliser.target = s.equaliser.target := by simp [subLive]
  have act : (subLive (programOf s p c) s).equaliser.active = s.equaliser.active := by simp [subLive]
  have clear : ∀ v : State, (setTargetChain c none v).equaliser.active = v.equaliser.active := fun _ => rfl
  unfold eqComplete
  dsimp only
  split
  · rename_i h ht
    rw [sub] at ht
    rw [clear, setActive_at, act, ht, Option.getD_some]
  · rename_i ht
    rw [sub] at ht
    rw [act, ht, Option.getD_none]
    split
    · subst_vars; rfl
    · rfl

theorem carryOver_active (f : Fade) (i : FadeSlot) (d : Chan) : (carryOver f i s).equaliser.active[d] =
    if d = f.channel then (s.equaliser.target[f.channel]).getD s.equaliser.active[f.channel]
    else s.equaliser.active[d] := eqComplete_active ..

theorem SchedAct.active (a : SchedAct s t) : t.equaliser.active = s.equaliser.active ∨
    (∃ c q, t = instantSwitch c (activePage s.sched.switch[c]) q (leaveQueue c s)) ∨
    ∃ i f, s.sched.slots[i] = some f ∧ t = carryOver f i s := by
  cases a with
  | start => exact .inl (by simp [startFade, eqStart, setTargetChain, addLive, setSwitch, setSlot, setQueue])
  | switch c q => exact .inr (.inl ⟨c, q, rfl⟩)
  | stay => exact .inl rfl
  | join => exact .inl rfl
  | wait => exact .inl rfl
  | redirect => exact .inl rfl
  | carry i f holds => exact .inr (.inr ⟨i, f, holds, rfl⟩)

/-- No act gives a channel at rest a history. -/
theorem SchedAct.silent (a : SchedAct s t) (h : SchedLaws s) {d : Chan} (hr : Rests s d) (hd : Silent s d) :
    Silent t d := by
  unfold Silent
  rcases a.active with e | ⟨c, q, rfl⟩ | ⟨i, f, hf, rfl⟩
  · rw [e]; exact hd
  · rw [instantSwitch_active]
    split
    · exact fun h hh => List.eq_of_mem_replicate hh
    · exact hd
  · rw [carryOver_active, if_neg]
    · exact hd
    · rintro rfl
      rw [Rests, h.occupied i f hf] at hr
      cases hr

theorem SchedActs.silent (a : SchedActs s t) (h : SchedLaws s) {d : Chan} (ho : s.channels[d].out = none)
    (hr : Rests s d) (hd : Silent s d) : Silent t d := by
  induction a with
  | refl => exact hd
  | tail b a ih =>
    exact a.silent (SchedActs.laws b h) (SchedActs.rests b d ho hr).2 ih

/-! ### Every step -/

theorem DisabledInv.of_same (h : DisabledInv s) (ho : ∀ c : Chan, t.channels[c].out = s.channels[c].out)
    (hd : t.port.delays = s.port.delays) (ha : t.equaliser.active = s.equaliser.active) : DisabledInv t := by
  refine disabledInv_iff.mpr fun c hc => ?_
  rw [ho] at hc
  unfold Silent
  rw [hd, ha]
  exact disabledInv_iff.mp h c hc

theorem DisabledInv.acts (hs : SchedSound s) (h : DisabledInv s) (a : SchedActs s t) : DisabledInv t := by
  have g := SchedActs.onlyPages a
  refine disabledInv_iff.mpr fun c hc => ?_
  rw [g.channels] at hc
  obtain ⟨hd, hsil⟩ := disabledInv_iff.mp h c hc
  exact ⟨by rw [g.port]; exact hd, SchedActs.silent a hs.laws hc (hs.resting c hc) hsil⟩

theorem DisabledInv.resettleZones (h : DisabledInv s) (a b : Bool) : DisabledInv (resettleZones a b s) := by
  have g := onlyPages_resettleZones (s := s) a b
  exact h.of_same (fun _ => by rw [g.channels]) (by rw [g.port]) (by rw [resettleZones_equaliser])

theorem DisabledInv.reviewPages (hs : SchedInv s) (h : DisabledInv s) (a b : Bool) : DisabledInv (reviewPages a b s) := by
  have hv : SchedInv { s with gain.zones := reviewedZones a b s.gain.zones } :=
    hs.of_same ⟨rfl, rfl, rfl, fun _ => rfl, fun z => .inl (reviewedZones_exponent a b s.gain.zones z)⟩
  have h' : DisabledInv { s with gain.zones := reviewedZones a b s.gain.zones } := h.of_same (fun _ => rfl) rfl rfl
  dsimp only [Machine.reviewPages]
  split
  · rw [handRequests_eq]
    exact (h'.acts hv.sound (hv.sound.laws.requested_acts _ _)).resettleZones _ _
  · exact h'

theorem DisabledInv.storeRecord (h : DisabledInv s) {c : Chan} {r : ChannelRecord}
    (hr : r.out = none → s.channels[c].out = none) : DisabledInv (storeRecord c r s) := by
  refine disabledInv_iff.mpr fun d hd => ?_
  rw [storeRecord_at] at hd
  unfold Silent
  rw [storeRecord_port, storeRecord_equaliser]
  refine disabledInv_iff.mp h d ?_
  split at hd
  · subst_vars; exact hr hd
  · exact hd

/-- A disabled channel is silenced, and the others stay silent (R25). -/
theorem DisabledInv.disable (hs : SchedInv s) (h : DisabledInv s) (c : Chan) (r : ChannelRecord) (z : Zone) (moved : Bool) :
    DisabledInv (disableChannel c z moved (Machine.storeRecord c r s)) := by
  have d := hs.disabling c r
  have acts : SchedActs (Machine.storeRecord c r s)
      (if moved then askZonePage requestDisabled c (schedDisable c (Machine.storeRecord c r s))
       else schedDisable c (Machine.storeRecord c r s)) := by
    have first := d.laws.schedDisable_acts c d.resting
    split
    · exact first.trans ((SchedActs.laws first d.laws).requestDisabled_acts c _)
    · exact first
  unfold disableChannel
  dsimp only
  generalize (if moved then askZonePage requestDisabled c (schedDisable c (Machine.storeRecord c r s))
    else schedDisable c (Machine.storeRecord c r s)) = v at acts
  have g := SchedActs.onlyPages acts
  have g' := onlyPages_resettleLoad v c z
  refine disabledInv_iff.mpr fun e he => ?_
  have he : v.channels[e].out = none := by rw [← g'.channels]; exact he
  rw [g.channels] at he
  unfold Silent
  have delay : (emptyDelay c (zeroActive c (resettleLoad c z v))).port.delays[e] =
      if e = c then Delay.empty else s.port.delays[e] := by
    unfold emptyDelay
    rw [get_set, ← storeRecord_port s c r, ← g.port, ← g'.port]
    rfl
  have active : (emptyDelay c (zeroActive c (resettleLoad c z v))).equaliser.active[e] =
      if e = c then zeroHistory v.equaliser.active[c] else v.equaliser.active[e] := by
    change (zeroActive c (resettleLoad c z v)).equaliser.active[e] = _
    unfold zeroActive resettleLoad
    rw [setActive_at, resettleZones_equaliser]
  rw [delay, active]
  split
  · exact ⟨rfl, fun _ hh => mem_zeroHistory hh⟩
  · rename_i hec
    have he' : s.channels[e].out = none := by rwa [storeRecord_at, if_neg hec] at he
    obtain ⟨hd, hsil⟩ := disabledInv_iff.mp h e he'
    refine ⟨hd, SchedActs.silent acts d.laws he (d.resting e hec he) ?_⟩
    unfold Silent
    rw [storeRecord_equaliser]
    exact hsil

theorem DisabledInv.loadRecord (hs : SchedInv s) (h : DisabledInv s) (c : Chan) (r : ChannelRecord) :
    DisabledInv (loadRecord c r s) := by
  have move (g : SchedInv (Machine.storeRecord c r s)) (g' : DisabledInv (Machine.storeRecord c r s)) (z : Zone) :
      DisabledInv (moveChannel c z (Machine.storeRecord c r s)) :=
    (g'.acts g.sound (g.sound.laws.pageRequest_acts c _)).resettleZones _ _
  dsimp only [Machine.loadRecord]
  split
  · exact h.disable hs c r _ _
  · rename_i hr
    have hout : r.out ≠ none := Option.isSome_iff_ne_none.mp hr
    have g : SchedInv (Machine.storeRecord c r s) := hs.storeRecord fun ho => absurd ho hout
    have g' : DisabledInv (Machine.storeRecord c r s) := h.storeRecord fun ho => absurd ho hout
    have first (v : State) (hv : SchedActs (Machine.storeRecord c r s) v) :
        SchedActs (Machine.storeRecord c r s) (askZonePage requestEnabled c v) := by
      refine hv.trans (requestEnabled_acts ?_ _)
      rw [(SchedActs.onlyPages hv).channels, storeRecord_at, if_pos rfl]
      exact hout
    unfold enableChannel
    dsimp only
    refine DisabledInv.resettleZones (g'.acts g.sound (first _ ?_)) _ _
    split
    · exact g.sound.laws.requestDisabled_acts c _
    · exact .refl
  · rename_i hr
    have hout : r.out ≠ none := Option.isSome_iff_ne_none.mp hr
    have g' : DisabledInv (Machine.storeRecord c r s) := h.storeRecord fun ho => absurd ho hout
    split
    · exact move (hs.storeRecord fun ho => absurd ho hout) g' _
    · exact g'
  · rename_i ho _
    have ho : s.channels[c].out = none := Option.not_isSome_iff_eq_none.mp (by rw [ho]; exact Bool.false_ne_true)
    have g' : DisabledInv (Machine.storeRecord c r s) := h.storeRecord fun _ => ho
    split
    · exact move (hs.storeRecord fun _ => hs.sound.resting c ho) g' _
    · exact g'

theorem keptPages_disabled : KeptPages DisabledInv where
  same _ _ e h := h.of_same e.out e.delays (by rw [e.equaliser])
  blocksReset pins a tw o q := by
    refine disabledInv_iff.mpr fun c _ => ⟨?_, fun h hh => ?_⟩
    · simp [State.blocksReset, RingPort.reset]
    · simp [State.blocksReset, Equaliser.reset] at hh
  review s a b hs h := h.reviewPages hs a b
  load s c r hs h := h.loadRecord hs c r
  coeffs _ _ _ _ h := h.of_same (fun _ => rfl) rfl rfl
  program _ _ _ _ _ _ _ h := h.of_same (fun _ => rfl) rfl rfl
  lost s hs h := by
    have g : OnlyPagesMove s (zeroAllChains (schedLockLoss s)) := onlyPages_schedLockLoss.trans onlyPages_zeroAllChains
    refine disabledInv_iff.mpr fun c hc => ⟨?_, fun p hp => ?_⟩
    · rw [g.channels] at hc
      rw [g.port]
      exact h.delay c hc
    · simp only [zeroAllChains, zeroedActive, Fin.getElem_fin, Vector.getElem_ofFn] at hp
      exact mem_zeroHistory hp
  emptied s h := disabledInv_iff.mpr fun c hc => ⟨by simp, h.silent c hc⟩
  audio s x r _ h e hv := by
    subst e
    have hch : (audioAct x r).state.channels = r.state.channels := by simp [audioAct, storeAudio]
    refine disabledInv_iff.mpr fun c hc => ?_
    rw [hch] at hc
    unfold Silent
    rw [audioAct_delays, audioAct_active, hv c hc]
    exact disabledInv_iff.mp h c hc
  fades s view step hs h := by
    have sound := hs.sound.stepSlots view step
    obtain ⟨-, acts, -⟩ := completions_sound (List.finRange 8) sound
    have h' : DisabledInv (stepSlots view step s) := h.of_same (fun _ => rfl) rfl rfl
    exact (h'.acts sound acts).resettleZones _ _
  completes s i f hs h _ := by
    unfold fadeCompletes
    rw [resettle_eq]
    exact (h.acts hs.sound (hs.sound.completeFade_acts i)).resettleZones _ _

/-- Settles O54: no act gives a disabled channel, which is at rest, a history, and a disable empties its delay. -/
theorem disabledKept : Obligations.DisabledKept := fun _ _ hs h e => (step_keeps keptPages_disabled.kept ⟨hs, h⟩ e).2

end Sys2Proof.Machine
end

section
/-! The live counts, the shapes of the chain states and of the programs (R117, R120, R124): what each act of the Page
Scheduler does to them, and that every step keeps them. -/

namespace Sys2Proof.Machine

variable {s t u : State}

/-! ### The Equaliser through the acts -/

theorem setTarget_at (c d : Chan) (l : Option Chain) :
    (setTargetChain c l s).equaliser.target[d] = if d = c then l else s.equaliser.target[d] := get_set _ _ _ _

theorem startFade_active (c : Chan) (p q : Page) (i : FadeSlot) :
    (startFade c p q i s).equaliser.active = s.equaliser.active := by
  simp [startFade, eqStart, setSwitch, setSlot]

theorem startFade_target (c d : Chan) (p q : Page) (i : FadeSlot) : (startFade c p q i s).equaliser.target[d] =
    if d = c then some (zeroChain (programOf s q c)) else s.equaliser.target[d] := by
  unfold startFade eqStart
  rw [setTarget_at, addLive_target]
  rfl

theorem startFade_live (c : Chan) (p q : Page) (i : FadeSlot) (n : SectionId) :
    ((startFade c p q i s).equaliser.sections[n]).live =
      (s.equaliser.sections[n]).live + (programOf s q c).count n := by
  unfold startFade eqStart
  rw [setTargetChain_sections, addLive_live]
  rfl

theorem instantSwitch_target (c : Chan) (p q : Page) : (instantSwitch c p q s).equaliser.target = s.equaliser.target := by
  simp [instantSwitch, eqSwitch, setSwitch]

theorem instantSwitch_live (c : Chan) (p q : Page) (n : SectionId) :
    ((instantSwitch c p q s).equaliser.sections[n]).live =
      (s.equaliser.sections[n]).live - (programOf s p c).count n + (programOf s q c).count n := by
  unfold instantSwitch eqSwitch
  rw [setActiveChain_sections, addLive_live, subLive_live]
  rfl

theorem eqComplete_target (c d : Chan) (p : Page) :
    (eqComplete c p s).equaliser.target[d] = if d = c then none else s.equaliser.target[d] := by
  unfold eqComplete
  dsimp only
  split
  · rw [setTarget_at, setActiveChain_target, subLive_target]
  · rename_i ht
    rw [subLive_target] at ht ⊢
    split
    · subst_vars; exact ht
    · rfl

theorem eqComplete_live (c : Chan) (p : Page) (n : SectionId) : ((eqComplete c p s).equaliser.sections[n]).live =
    (s.equaliser.sections[n]).live - (programOf s p c).count n := by
  unfold eqComplete
  dsimp only
  split
  · rw [setTargetChain_sections, setActiveChain_sections, subLive_live]
  · exact subLive_live ..

theorem carryOver_target (f : Fade) (i : FadeSlot) (d : Chan) : (carryOver f i s).equaliser.target[d] =
    if d = f.channel then none else s.equaliser.target[d] := eqComplete_target ..

theorem carryOver_live (f : Fade) (i : FadeSlot) (n : SectionId) : ((carryOver f i s).equaliser.sections[n]).live =
    (s.equaliser.sections[n]).live - (programOf s f.old f.channel).count n := eqComplete_live ..

/-! ### Appearances -/

/-- The appearances of a section in the programs a course runs (R120). -/
def appearsOn (s : State) (i : SectionId) (c : Chan) (w : Switch × Option Fade) : Nat :=
  (programOf s (activePage w.1) c).count i + (w.2.map fun f => (programOf s f.target c).count i).getD 0

theorem appearancesIn_eq (i : SectionId) (c : Chan) : appearancesIn s i c = appearsOn s i c (course s c) := by
  unfold appearancesIn appearsOn
  rw [targetPage_eq, Option.map_map]
  rfl

theorem appearsOn_congr (hp : t.equaliser.programs = s.equaliser.programs) (i : SectionId) (c : Chan) (w) :
    appearsOn t i c w = appearsOn s i c w := by
  unfold appearsOn programOf
  rw [hp]

theorem appearances_sum (i : SectionId) : appearances s i = ∑ c : Chan, appearancesIn s i c :=
  (Fin.sum_univ_def _).symm

/-- Where one channel changes what it runs, the appearances change as those in it do. -/
theorem appearances_change {c : Chan} {i : SectionId} (h : ∀ d : Chan, d ≠ c → appearancesIn t i d = appearancesIn s i d) :
    appearances t i + appearancesIn s i c = appearances s i + appearancesIn t i c := by
  have split (v : State) : appearances v i = appearancesIn v i c + ∑ d ∈ Finset.univ.erase c, appearancesIn v i d := by
    rw [appearances_sum]
    exact (Finset.add_sum_erase _ _ (Finset.mem_univ c)).symm
  have rest : ∑ d ∈ Finset.univ.erase c, appearancesIn t i d = ∑ d ∈ Finset.univ.erase c, appearancesIn s i d :=
    Finset.sum_congr rfl fun d hd => h d (Finset.ne_of_mem_erase hd)
  rw [split s, split t, rest]
  omega

theorem appearancesIn_le (i : SectionId) (c : Chan) : appearancesIn s i c ≤ appearances s i := by
  rw [appearances_sum]
  exact Finset.single_le_sum (fun _ _ => Nat.zero_le _) (Finset.mem_univ c)

/-! ### The laws an act keeps -/

/-- The chain states of a channel have the shapes of the programs it runs (R124). -/
def Shaped (s : State) (c : Chan) : Prop :=
  s.equaliser.active[c].length = (programOf s (activePage s.sched.switch[c]) c).length ∧
  (s.equaliser.target[c]).map List.length = (targetPage s c).map fun q => (programOf s q c).length

/-- The live counts are right and every channel's chain states have their shapes (R120, R124). -/
structure EqLaws (s : State) : Prop where
  live : ∀ i : SectionId, (s.equaliser.sections[i]).live = appearances s i
  shaped : ∀ c : Chan, Shaped s c

theorem equaliserInv_iff : EqualiserInv s ↔ EqLaws s ∧ ∀ p : Page, ∀ c : Chan, (programOf s p c).length ≤ 6 ∧
    ∀ i ∈ programOf s p c, (s.equaliser.sections[i]).valid = true :=
  ⟨fun h => ⟨⟨h.live, fun c => ⟨h.active c, h.target c⟩⟩, h.programs⟩,
   fun ⟨h, hp⟩ => ⟨h.live, fun c => (h.shaped c).1, fun c => (h.shaped c).2, hp⟩⟩

/-- The shape of a channel's chains, by its course. -/
def ShapedOn (s : State) (c : Chan) (w : Switch × Option Fade) (active : Chain) (target : Option Chain) : Prop :=
  active.length = (programOf s (activePage w.1) c).length ∧
  target.map List.length = w.2.map fun f => (programOf s f.target c).length

theorem shaped_iff (c : Chan) :
    Shaped s c ↔ ShapedOn s c (course s c) s.equaliser.active[c] s.equaliser.target[c] := by
  unfold Shaped ShapedOn
  rw [targetPage_eq, Option.map_map]
  rfl

theorem shapedOn_congr (hp : t.equaliser.programs = s.equaliser.programs) (c : Chan) (w a g) :
    ShapedOn t c w a g ↔ ShapedOn s c w a g := by
  unfold ShapedOn programOf
  rw [hp]

/-- The laws again, where one channel changes its course and its chain states, and the live counts by the difference. -/
theorem EqLaws.change (h : EqLaws s) {c : Chan} (hp : t.equaliser.programs = s.equaliser.programs)
    (others : OthersOn c s t)
    (chains : ∀ d : Chan, d ≠ c →
      t.equaliser.active[d] = s.equaliser.active[d] ∧ t.equaliser.target[d] = s.equaliser.target[d])
    (shape : ShapedOn s c (course t c) t.equaliser.active[c] t.equaliser.target[c])
    (live : ∀ i : SectionId, (t.equaliser.sections[i]).live + appearsOn s i c (course s c) =
      (s.equaliser.sections[i]).live + appearsOn s i c (course t c)) : EqLaws t := by
  refine ⟨fun i => ?_, fun d => ?_⟩
  · have ch := appearances_change (s := s) (t := t) (c := c) (i := i) fun d hd => by
      rw [appearancesIn_eq, appearancesIn_eq, others d hd, appearsOn_congr hp]
    have lv := live i
    have before := h.live i
    rw [appearancesIn_eq, appearancesIn_eq, appearsOn_congr hp] at ch
    omega
  · rw [shaped_iff, shapedOn_congr hp]
    by_cases hd : d = c
    · subst hd; exact shape
    · rw [others d hd, (chains d hd).1, (chains d hd).2]
      exact (shaped_iff d).mp (h.shaped d)

theorem EqLaws.live_ge (h : EqLaws s) (i : SectionId) (c : Chan) :
    appearsOn s i c (course s c) ≤ (s.equaliser.sections[i]).live := by
  rw [h.live, ← appearancesIn_eq]
  exact appearancesIn_le i c

theorem course_of_slot_none {c : Chan} (h : (s.sched.switch[c]).slot = none) :
    course s c = (s.sched.switch[c], none) := by
  unfold course; rw [h]; rfl

theorem SchedLaws.course_fading (h : SchedLaws s) {i : FadeSlot} {f : Fade} (hf : s.sched.slots[i] = some f) :
    course s f.channel = (.fading f.old i, some f) := by
  unfold course
  rw [h.occupied i f hf]
  change (_, s.sched.slots[i]) = _
  rw [hf]

/-- An act that leaves the Equaliser alone and every course on the same programs keeps its laws. -/
theorem EqLaws.still (h : EqLaws s) {c : Chan} (he : t.equaliser = s.equaliser) (others : OthersOn c s t)
    (hw : activePage (course t c).1 = activePage (course s c).1)
    (hf : (course t c).2.map Fade.target = (course s c).2.map Fade.target) : EqLaws t := by
  have maps {α : Type} (g : Page → α) :
      (course t c).2.map (fun f => g f.target) = (course s c).2.map fun f => g f.target := by
    have := congrArg (Option.map g) hf
    rwa [Option.map_map, Option.map_map] at this
  refine h.change (by rw [he]) others (fun d _ => by rw [he]; exact ⟨rfl, rfl⟩) ?_ fun i => ?_
  · rw [he]
    obtain ⟨ha, ht⟩ := (shaped_iff c).mp (h.shaped c)
    exact ⟨by rw [hw]; exact ha, by rw [maps fun q => (programOf s q c).length]; exact ht⟩
  · rw [he]
    unfold appearsOn
    rw [hw, maps fun q => (programOf s q c).count i]

theorem SchedAct.eqLaws (a : SchedAct s t) (hl : SchedLaws s) (h : EqLaws s) : EqLaws t := by
  have hp := a.onlyPages.programs
  cases a with
  | start c q i queue rest new free running left =>
    have before := course_of_slot_none rest
    have after := start_course (s := s) c (activePage s.sched.switch[c]) q i queue
    refine h.change hp (hl.start_others free _ _ _) (fun d hd => ⟨?_, ?_⟩) ?_ fun n => ?_
    · rw [startFade_active]; rfl
    · rw [startFade_target, if_neg hd]; rfl
    · rw [after, startFade_active, startFade_target, if_pos rfl]
      exact ⟨(h.shaped c).1, by simp [zeroChain, freshFade, programOf, setQueue]⟩
    · rw [before, after, startFade_live]
      change (s.equaliser.sections[n]).live + (programOf s q c).count n + _ = _
      simp only [appearsOn, freshFade, activePage, Option.map_some, Option.getD_some, Option.map_none, Option.getD_none]
      omega
  | switch c q rest =>
    have before := course_of_slot_none rest
    have after := (switch_moved (s := s) c (activePage s.sched.switch[c]) q).course_at
    refine h.change hp (switch_others _ _ _) (fun d hd => ⟨?_, ?_⟩) ?_ fun n => ?_
    · rw [instantSwitch_active, if_neg hd]; rfl
    · rw [instantSwitch_target]; rfl
    · rw [after, instantSwitch_active, if_pos rfl, instantSwitch_target]
      have := ((shaped_iff c).mp (h.shaped c)).2
      rw [before] at this
      exact ⟨by simp [zeroChain, programOf, leaveQueue, setQueue, activePage], this⟩
    · have ge := h.live_ge n c
      rw [before] at ge ⊢
      rw [after, instantSwitch_live]
      change (s.equaliser.sections[n]).live - (programOf s (activePage s.sched.switch[c]) c).count n +
        (programOf s q c).count n + _ = _
      simp only [appearsOn, activePage, Switch.slot, Option.bind_none, Option.map_none, Option.getD_none] at ge ⊢
      omega
  | stay c rest =>
    have before := course_of_slot_none rest
    have m := stay_moved (s := s) c (activePage s.sched.switch[c])
    refine h.still (c := c) rfl (m.othersOn fun _ _ _ _ => rfl) ?_ ?_
    · rw [m.course_at, before]; rfl
    · rw [m.course_at, before]; rfl
  | join c p q steady new running =>
    have before := course_of_slot_none (s := s) (c := c) (by rw [steady]; rfl)
    have m := join_moved (s := s) c p q
    refine h.still (c := c) rfl (m.othersOn fun _ _ _ _ => rfl) ?_ ?_
    · rw [m.course_at, before, steady]; rfl
    · rw [m.course_at, before]; rfl
  | wait c p q r waits new =>
    have before := course_of_slot_none (s := s) (c := c) (by rw [waits]; rfl)
    have m := wait_moved (s := s) c p r
    refine h.still (c := c) rfl (m.othersOn fun _ _ _ _ => rfl) ?_ ?_
    · rw [m.course_at, before, waits]; rfl
    · rw [m.course_at, before]; rfl
  | redirect i f n holds new =>
    have before := hl.course_fading holds
    have after : course (setSlot i (some { f with next := n }) s) f.channel =
        (.fading f.old i, some { f with next := n }) := by
      have hsw : (setSlot i (some { f with next := n }) s).sched.switch[f.channel] = .fading f.old i :=
        hl.occupied i f holds
      unfold course
      rw [hsw]
      change (_, (setSlot i (some { f with next := n }) s).sched.slots[i]) = _
      rw [setSlot_at, if_pos rfl]
    refine h.still (c := f.channel) rfl (hl.redirect_others holds n) ?_ ?_
    · rw [after, before]
    · rw [after, before]; rfl
  | carry i f holds =>
    have before := hl.course_fading holds
    have after := (carry_moved (s := s) f i).course_at
    obtain ⟨-, ht⟩ := (shaped_iff f.channel).mp (h.shaped f.channel)
    rw [before] at ht
    refine h.change hp (hl.carry_others holds) (fun d hd => ⟨?_, ?_⟩) ?_ fun n => ?_
    · rw [carryOver_active, if_neg hd]
    · rw [carryOver_target, if_neg hd]
    · rw [after, carryOver_active, if_pos rfl, carryOver_target, if_pos rfl]
      obtain ⟨l, hl, hlen⟩ := Option.map_eq_some_iff.mp ht
      rw [hl]
      exact ⟨hlen, rfl⟩
    · have ge := h.live_ge n f.channel
      rw [before] at ge ⊢
      rw [after, carryOver_live]
      simp only [appearsOn, activePage, Switch.slot, Option.bind_none, Option.map_none, Option.getD_none,
        Option.map_some, Option.getD_some] at ge ⊢
      omega

theorem SchedActs.eqLaws (a : SchedActs s t) (hl : SchedLaws s) (h : EqLaws s) : EqLaws t := by
  induction a with
  | refl => exact h
  | tail b a ih => exact a.eqLaws (SchedActs.laws b hl) ih

end Sys2Proof.Machine
end

section
/-! The Equaliser's laws through every step (R117, R120, R124). -/

namespace Sys2Proof.Machine

variable {s t u : State}

/-- The programs are in shape and name valid sections (R117). -/
def ProgramsSound (s : State) : Prop := ∀ p : Page, ∀ c : Chan, (programOf s p c).length ≤ 6 ∧
  ∀ i ∈ programOf s p c, (s.equaliser.sections[i]).valid = true

theorem ProgramsSound.of_same (h : ProgramsSound s) (hp : t.equaliser.programs = s.equaliser.programs)
    (hv : ∀ i : SectionId, (s.equaliser.sections[i]).valid = true → (t.equaliser.sections[i]).valid = true) :
    ProgramsSound t := by
  intro p c
  have e : programOf t p c = programOf s p c := by unfold programOf; rw [hp]
  rw [e]
  exact ⟨(h p c).1, fun i hi => hv i ((h p c).2 i hi)⟩

theorem ProgramsSound.onlyPages (h : ProgramsSound s) (g : OnlyPagesMove s t) : ProgramsSound t :=
  h.of_same g.programs fun i hv => by rw [(g.coeffs i).2]; exact hv

theorem EqualiserInv.laws (h : EqualiserInv s) : EqLaws s := (equaliserInv_iff.mp h).1

theorem EqualiserInv.sound (h : EqualiserInv s) : ProgramsSound s := (equaliserInv_iff.mp h).2

/-- The laws read the courses, the programs, the live counts and the shapes of the chains. -/
theorem EqLaws.of_same (h : EqLaws s) (hp : t.equaliser.programs = s.equaliser.programs)
    (hw : ∀ c : Chan, t.sched.switch[c] = s.sched.switch[c]) (ht : ∀ c : Chan, targetPage t c = targetPage s c)
    (hl : ∀ i : SectionId, (t.equaliser.sections[i]).live = (s.equaliser.sections[i]).live)
    (ha : ∀ c : Chan, (t.equaliser.active[c]).length = (s.equaliser.active[c]).length)
    (hg : ∀ c : Chan, (t.equaliser.target[c]).map List.length = (s.equaliser.target[c]).map List.length) : EqLaws t := by
  have prog (p : Page) (c : Chan) : programOf t p c = programOf s p c := by unfold programOf; rw [hp]
  have appear (i : SectionId) (c : Chan) : appearancesIn t i c = appearancesIn s i c := by
    unfold appearancesIn
    rw [hw, ht, prog]
    simp only [prog]
  refine ⟨fun i => ?_, fun c => ?_⟩
  · rw [hl, h.live, appearances_sum, appearances_sum]
    exact Finset.sum_congr rfl fun c _ => (appear i c).symm
  · obtain ⟨h1, h2⟩ := h.shaped c
    refine ⟨by rw [ha, hw, prog]; exact h1, ?_⟩
    rw [hg, ht]
    simp only [prog]
    exact h2

theorem EqualiserInv.of_same (h : EqualiserInv s) (he : t.equaliser = s.equaliser) (hs : t.sched = s.sched) :
    EqualiserInv t := by
  refine equaliserInv_iff.mpr ⟨h.laws.of_same (by rw [he]) (fun _ => by rw [hs]) (fun _ => by unfold targetPage; rw [hs])
    (fun _ => by rw [he]) (fun _ => by rw [he]) (fun _ => by rw [he]), ?_⟩
  exact h.sound.of_same (by rw [he]) fun _ hv => by rw [he]; exact hv

theorem EqualiserInv.acts (hs : SchedLaws s) (h : EqualiserInv s) (a : SchedActs s t) : EqualiserInv t :=
  equaliserInv_iff.mpr ⟨SchedActs.eqLaws a hs h.laws, h.sound.onlyPages (SchedActs.onlyPages a)⟩

theorem targetPage_of_same (hw : t.sched.switch = s.sched.switch) (hl : t.sched.slots = s.sched.slots) (c : Chan) :
    targetPage t c = targetPage s c := targetPage_congr (course_of_same hw hl c)

theorem EqualiserInv.resettleZones (h : EqualiserInv s) (a b : Bool) : EqualiserInv (resettleZones a b s) := by
  refine equaliserInv_iff.mpr ⟨h.laws.of_same (by simp) (fun c => by rw [resettleZones_switch'])
    (fun c => targetPage_congr (course_resettleZones a b c)) (fun _ => by simp) (fun _ => by simp) (fun _ => by simp), ?_⟩
  exact h.sound.onlyPages (onlyPages_resettleZones _ _)

theorem EqualiserInv.reviewPages (hs : SchedInv s) (h : EqualiserInv s) (a b : Bool) :
    EqualiserInv (reviewPages a b s) := by
  have hv : SchedInv { s with gain.zones := reviewedZones a b s.gain.zones } :=
    hs.of_same ⟨rfl, rfl, rfl, fun _ => rfl, fun z => .inl (reviewedZones_exponent a b s.gain.zones z)⟩
  have h' : EqualiserInv { s with gain.zones := reviewedZones a b s.gain.zones } := h.of_same rfl rfl
  dsimp only [Machine.reviewPages]
  split
  · rw [handRequests_eq]
    exact (h'.acts hv.sound.laws (hv.sound.laws.requested_acts _ _)).resettleZones _ _
  · exact h'

theorem EqualiserInv.storeRecord (h : EqualiserInv s) (c : Chan) (r : ChannelRecord) : EqualiserInv (storeRecord c r s) :=
  h.of_same (by simp) (by simp)

theorem zeroHistory_length (l : Chain) : (zeroHistory l).length = l.length := List.length_replicate

theorem EqualiserInv.zeroActive (h : EqualiserInv s) (c : Chan) : EqualiserInv (zeroActive c s) := by
  have active (d : Chan) : ((Machine.zeroActive c s).equaliser.active[d]).length = (s.equaliser.active[d]).length := by
    unfold Machine.zeroActive
    rw [setActive_at]
    split
    · subst_vars; exact zeroHistory_length _
    · rfl
  exact equaliserInv_iff.mpr ⟨h.laws.of_same rfl (fun _ => rfl) (fun _ => rfl) (fun _ => rfl) active (fun _ => rfl), h.sound⟩

theorem EqualiserInv.loadRecord (hs : SchedInv s) (h : EqualiserInv s) (c : Chan) (r : ChannelRecord) :
    EqualiserInv (loadRecord c r s) := by
  have l := hs.sound.laws.storeRecord c r
  have h' := h.storeRecord c r
  have move (z : Zone) : EqualiserInv (moveChannel c z (Machine.storeRecord c r s)) :=
    (h'.acts l (l.pageRequest_acts c _)).resettleZones _ _
  dsimp only [Machine.loadRecord]
  split
  · have d := hs.disabling c r
    have first := d.laws.schedDisable_acts c d.resting
    refine EqualiserInv.of_same (s := Machine.zeroActive c _) (EqualiserInv.zeroActive ?_ c) rfl rfl
    refine EqualiserInv.resettleZones (h'.acts l ?_) _ _
    split
    · exact first.trans ((SchedActs.laws first d.laws).requestDisabled_acts c _)
    · exact first
  · rename_i hr
    have hout : r.out ≠ none := Option.isSome_iff_ne_none.mp hr
    refine EqualiserInv.resettleZones (h'.acts l ?_) _ _
    have first (v : State) (hv : SchedActs (Machine.storeRecord c r s) v) :
        SchedActs (Machine.storeRecord c r s) (askZonePage requestEnabled c v) := by
      refine hv.trans (requestEnabled_acts ?_ _)
      rw [(SchedActs.onlyPages hv).channels, storeRecord_at, if_pos rfl]
      exact hout
    refine first _ ?_
    split
    · exact l.requestDisabled_acts c _
    · exact .refl
  · split
    · exact move _
    · exact h'
  · split
    · exact move _
    · exact h'

/-! ### Loads of sections and programs -/

theorem pageInUse_iff (p : Page) (c : Chan) :
    pageInUse s p c = true ↔ p = activePage s.sched.switch[c] ∨ targetPage s c = some p := by
  unfold pageInUse targetPage
  cases s.sched.switch[c] with
  | steady a => simp [activePage, Switch.slot]
  | queued a q => simp [activePage, Switch.slot]
  | fading a i =>
    simp only [activePage, Switch.slot, Option.bind_some, Bool.or_eq_true, beq_iff_eq]
    cases s.sched.slots[i] <;> simp

theorem setProgram_programOf (p q : Page) (c d : Chan) (prog : Program) :
    programOf (setProgram p c prog s) q d = if q = p ∧ d = c then prog else programOf s q d := by
  unfold programOf setProgram
  simp only [get_set]
  by_cases hq : q = p
  · subst hq
    simp only [if_true, true_and, get_set]
  · simp only [hq, false_and, if_false]

theorem EqualiserInv.setProgram (h : EqualiserInv s) {p : Page} {c : Chan} {prog : Program} (short : prog.length ≤ 6)
    (valid : ∀ i ∈ prog, (s.equaliser.sections[i]).valid = true) (unused : pageInUse s p c = false) :
    EqualiserInv (setProgram p c prog s) := by
  have free : ¬ (p = activePage s.sched.switch[c] ∨ targetPage s c = some p) := by
    rw [← pageInUse_iff, unused]; exact Bool.false_ne_true
  obtain ⟨hact, htgt⟩ := not_or.mp free
  have active (d : Chan) : programOf (Machine.setProgram p c prog s) (activePage s.sched.switch[d]) d =
      programOf s (activePage s.sched.switch[d]) d := by
    rw [setProgram_programOf, if_neg]
    rintro ⟨e, rfl⟩
    exact hact e.symm
  have target (d : Chan) {α : Type} (g : Program → α) :
      (targetPage s d).map (fun q => g (programOf (Machine.setProgram p c prog s) q d)) =
        (targetPage s d).map fun q => g (programOf s q d) := by
    cases hq : targetPage s d with
    | none => rfl
    | some q =>
      rw [Option.map_some, Option.map_some, setProgram_programOf, if_neg]
      rintro ⟨rfl, rfl⟩
      exact htgt hq
  have targetP (d : Chan) : targetPage (Machine.setProgram p c prog s) d = targetPage s d := rfl
  refine equaliserInv_iff.mpr ⟨⟨fun i => ?_, fun d => ?_⟩, fun q d => ?_⟩
  · refine (h.live i).trans ?_
    rw [appearances_sum, appearances_sum]
    refine Finset.sum_congr rfl fun d _ => ?_
    unfold appearancesIn
    rw [targetP, target d (List.count i)]
    exact congrArg (List.count i · + _) (active d).symm
  · obtain ⟨h1, h2⟩ := h.laws.shaped d
    refine ⟨h1.trans (congrArg List.length (active d).symm), ?_⟩
    rw [targetP, target d List.length]
    exact h2
  · rw [setProgram_programOf]
    split
    · exact ⟨short, valid⟩
    · exact h.programs q d

theorem EqualiserInv.setSection (h : EqualiserInv s) (i : SectionId) (k : Coeffs) :
    EqualiserInv { s with equaliser.sections :=
      s.equaliser.sections.set i { s.equaliser.sections[i] with valid := true, coeffs := k } } := by
  refine equaliserInv_iff.mpr ⟨h.laws.of_same rfl (fun _ => rfl) (fun _ => rfl) (fun j => ?_) (fun _ => rfl) (fun _ => rfl),
    h.sound.of_same rfl fun j hj => ?_⟩
  · rw [get_set]
    split
    · subst_vars; rfl
    · rfl
  · rw [get_set]
    split
    · rfl
    · exact hj

/-! ### Frames and the lock loss -/

theorem runChain_length (cs : List Coeffs) : ∀ (h : Chain) (x : Sample), (runChain cs h x).chain.length = cs.length := by
  induction cs with
  | nil => exact fun _ _ => rfl
  | cons c cs ih =>
    intro h x
    simp only [runChain, List.length_cons, ih]

theorem coeffsOf_length (p : Page) (c : Chan) : (coeffsOf s p c).length = (programOf s p c).length := List.length_map _

theorem fadeOf_eq (step : Stepping) (c : Chan) :
    fadeOf s step c = (s.sched.switch[c]).slot.bind fun i => stepsIn s step i := by
  unfold fadeOf
  cases s.sched.switch[c] <;> rfl

/-- A fade that a channel steps is that of its course. -/
theorem fadeOf_course {step : Stepping} {c : Chan} {f : Fade} (h : fadeOf s step c = some f) :
    (course s c).2 = some f := by
  rw [fadeOf_eq] at h
  obtain ⟨i, hi, hf⟩ := Option.bind_eq_some_iff.mp h
  unfold course
  rw [hi]
  exact (Option.filter_eq_some_iff.mp hf).1

theorem runVoicing_active (c : Chan) (fade : Option Fade) (mix : Sample) :
    (runVoicing s c fade mix).active =
      (runChain (coeffsOf s (activePage s.sched.switch[c]) c) s.equaliser.active[c] mix).chain := by
  unfold runVoicing
  dsimp only
  split <;> rfl

theorem runVoicing_shaped {step : Stepping} {c : Chan} (h : Shaped s c) (mix : Sample) :
    ShapedOn s c (course s c) (runVoicing s c (fadeOf s step c) mix).active
      (runVoicing s c (fadeOf s step c) mix).target := by
  obtain ⟨-, ht⟩ := (shaped_iff c).mp h
  refine ⟨?_, ?_⟩
  · rw [runVoicing_active, runChain_length, coeffsOf_length]
    rfl
  · unfold runVoicing
    dsimp only
    split
    · rename_i f l hf hl
      rw [fadeOf_course hf, Option.map_some, Option.map_some, runChain_length, coeffsOf_length]
    · exact ht

theorem EqualiserInv.audioAct {x : FrameCtx} {r : FrameRun} (h : EqualiserInv r.state) :
    EqualiserInv (audioAct x r).state := by
  have sched : (Machine.audioAct x r).state.sched = r.state.sched := by simp [Machine.audioAct, storeAudio]
  have programs : (Machine.audioAct x r).state.equaliser.programs = r.state.equaliser.programs := by
    simp [Machine.audioAct, storeAudio]
  have sections : (Machine.audioAct x r).state.equaliser.sections = r.state.equaliser.sections := by
    simp [Machine.audioAct, storeAudio]
  have shape (c : Chan) : ShapedOn r.state c (course r.state c) (Machine.audioAct x r).state.equaliser.active[c]
      (Machine.audioAct x r).state.equaliser.target[c] := by
    rw [audioAct_active, audioAct_target]
    split
    · exact runVoicing_shaped (h.laws.shaped c) _
    · exact (shaped_iff c).mp (h.laws.shaped c)
  refine equaliserInv_iff.mpr ⟨h.laws.of_same programs (fun _ => by rw [sched])
    (fun c => targetPage_of_same (by rw [sched]) (by rw [sched]) c) (fun _ => by rw [sections]) (fun c => ?_) (fun c => ?_),
    h.sound.of_same programs fun _ hv => by rw [sections]; exact hv⟩
  · rw [(shape c).1]; exact (h.laws.shaped c).1.symm
  · rw [(shape c).2]; exact ((shaped_iff c).mp (h.laws.shaped c)).2.symm

theorem SameButProgress.targetPage (h : SameButProgress s t) (hs : t.sched.switch = s.sched.switch) (c : Chan) :
    targetPage t c = Machine.targetPage s c := by
  unfold Machine.targetPage
  rw [hs]
  cases (s.sched.switch[c]).slot with
  | none => rfl
  | some i =>
    obtain ⟨n, hn⟩ := h i
    rw [Option.bind_some, Option.bind_some, hn, Option.map_map]
    rfl

theorem EqualiserInv.fadesAct (hs : SchedInv s) (h : EqualiserInv s) (view : View) (step : Stepping) :
    EqualiserInv (fadesAct view step s) := by
  have sound := hs.sound.stepSlots view step
  obtain ⟨-, acts, -⟩ := completions_sound (List.finRange 8) sound
  have stepped : EqualiserInv (stepSlots view step s) :=
    equaliserInv_iff.mpr ⟨h.laws.of_same rfl (fun _ => rfl) (fun c => (stepSlots_slot view step).targetPage rfl c)
      (fun _ => rfl) (fun _ => rfl) (fun _ => rfl), h.sound⟩
  unfold Machine.fadesAct
  exact (stepped.acts sound.laws acts).resettleZones _ _

theorem zeroAllChains_active_at (c : Chan) : (zeroAllChains s).equaliser.active[c] = zeroHistory s.equaliser.active[c] := by
  simp [zeroAllChains, zeroedActive]

theorem zeroAllChains_target_at (c : Chan) :
    (zeroAllChains s).equaliser.target[c] = (s.equaliser.target[c]).map zeroHistory := by
  simp [zeroAllChains, zeroedTarget]

theorem EqualiserInv.lockLoss (hs : SchedInv s) (h : EqualiserInv s) : EqualiserInv (zeroAllChains (schedLockLoss s)) := by
  have g : EqualiserInv (schedLockLoss s) := by
    rw [hs.sound.laws.schedLockLoss_eq]
    exact (h.acts hs.sound.laws hs.sound.laws.allLost_acts).resettleZones _ _
  generalize schedLockLoss s = v at g
  refine equaliserInv_iff.mpr ⟨g.laws.of_same (by simp) (fun _ => by simp)
    (fun c => targetPage_of_same (by simp) (by simp) c) (fun _ => by simp) (fun c => ?_) (fun c => ?_),
    g.sound.of_same (by simp) fun _ hv => by simpa using hv⟩
  · rw [zeroAllChains_active_at, zeroHistory_length]
  · rw [zeroAllChains_target_at, Option.map_map]
    exact congrArg (Option.map · _) (funext zeroHistory_length)

theorem equaliserInv_blocksReset (pins a tw o q) : EqualiserInv (State.blocksReset pins a tw o q) := by
  have program (p : Page) (c : Chan) : programOf (State.blocksReset pins a tw o q) p c = [] := by
    simp [programOf, State.blocksReset, Equaliser.reset]
  have target (c : Chan) : targetPage (State.blocksReset pins a tw o q) c = none := by
    simp [targetPage, State.blocksReset, Scheduler.reset, Switch.slot]
  refine equaliserInv_iff.mpr ⟨⟨fun i => ?_, fun c => ⟨?_, ?_⟩⟩, fun p c => ?_⟩
  · have zero : appearances (State.blocksReset pins a tw o q) i = 0 := by
      rw [appearances_sum]
      refine Finset.sum_eq_zero fun c _ => ?_
      simp only [appearancesIn, program, target, List.count_nil, Option.map_none, Option.getD_none,
        Nat.add_zero]
    rw [zero]
    simp [State.blocksReset, Equaliser.reset, Section.reset]
  · rw [program]; simp [State.blocksReset, Equaliser.reset]
  · rw [target]; simp [State.blocksReset, Equaliser.reset]
  · rw [program]
    exact ⟨Nat.zero_le _, fun i hi => by cases hi⟩

theorem keptPages_equaliser : KeptPages EqualiserInv where
  same _ _ e h := h.of_same e.equaliser e.sched
  blocksReset := equaliserInv_blocksReset
  review s a b hs h := h.reviewPages hs a b
  load s c r hs h := h.loadRecord hs c r
  coeffs _ i k _ h := h.setSection i k
  program _ _ _ _ short valid unused h := h.setProgram short valid unused
  lost s hs h := h.lockLoss hs
  emptied _ h := h.of_same rfl rfl
  audio s x r _ h e _ := by subst e; exact h.audioAct
  fades s view step hs h := h.fadesAct hs view step
  completes s i f hs h _ := by
    unfold fadeCompletes
    rw [resettle_eq]
    exact (h.acts hs.sound.laws (hs.sound.completeFade_acts i)).resettleZones _ _

/-- Settles O57: each act changes the live counts by what it changes of the programs its channel runs. -/
theorem equaliserKept : Obligations.EqualiserKept :=
  fun _ _ hs h e => (step_keeps keptPages_equaliser.kept ⟨hs, h⟩ e).2

end Sys2Proof.Machine
end

section
/-! What the Ring Port's acts keep: the pins, the queue, the lock and the miss count, and a sound assembler and sender
(R148, R155, R157). -/

namespace Sys2Proof.Machine

variable {s t u : State}

/-! ### What taking a command gives -/

/-- The shapes of what the owner of a command gives: a new state, a refusal, data words, or a deferred effect. -/
inductive TakenShape (s : State) : Taken → Prop
  | done (code : ResultCode) (t : State) (taken : code = .ok ∨ code = .clamped) : TakenShape s (done code t)
  | refused (code : ResultCode) : TakenShape s (done code s)
  | data (ws : List Word32) (t : State) : TakenShape s (answerData ws t)
  | deferred (code : ResultCode) (d : Deferred) (taken : code = .ok ∨ code = .clamped) :
      TakenShape s { state := s, code := code, data := [], after := d }

theorem clampedIf_taken (b : Bool) : clampedIf b = .ok ∨ clampedIf b = .clamped := by
  cases b
  · exact .inl rfl
  · exact .inr rfl

theorem takeCommand_shape (z : Zone) (s : State) (c : Command) : TakenShape s (takeCommand z s c) := by
  cases c with
  | assignAddress a tw => exact .deferred _ _ (clampedIf_taken _)
  | deviceReset => exact .deferred _ _ (.inl rfl)
  | readTable sel part =>
    simp only [takeCommand, takeReadTable]
    split
    · exact .data _ _
    · exact .refused _
  | setChannelTrim i trim =>
    simp only [takeCommand, takeSetChannelTrim]
    split
    · exact .refused _
    · exact .done _ _ (clampedIf_taken _)
  | setChannelMute i m =>
    simp only [takeCommand, takeSetChannelMute]
    split
    · exact .refused _
    · exact .done _ _ (.inl rfl)
  | setVolume step =>
    simp only [takeCommand, takeSetVolume]
    split
    · exact .done _ _ (.inl rfl)
    · exact .done _ _ (.inr rfl)
  | setRamp l p a b =>
    simp only [takeCommand, takeSetRamp]
    split
    · exact .refused _
    · exact .done _ _ (clampedIf_taken _)
  | vehicleState v b =>
    simp only [takeCommand, takeVehicleState]
    split
    · exact .done _ _ (clampedIf_taken _)
    · exact .done _ _ (.inl rfl)
  | loadSdvCurve points =>
    simp only [takeCommand, takeLoadSdvCurve]
    split
    · exact .refused _
    · split
      · exact .refused _
      · exact .done _ _ (clampedIf_taken _)
  | loadSource i p k =>
    simp only [takeCommand, takeLoadSource]
    split
    · split
      · exact .refused _
      · exact .done _ _ (.inl rfl)
    · exact .refused _
  | loadChannel w taps =>
    simp only [takeCommand, takeLoadChannel]
    split
    · exact .refused _
    · split
      · split
        · exact .refused _
        · exact .done _ _ (clampedIf_taken _)
      · exact .refused _
  | loadSection i k =>
    simp only [takeCommand, takeLoadSection]
    split
    · split
      · exact .refused _
      · split
        · exact .refused _
        · exact .done _ _ (.inl rfl)
    · exact .refused _
  | loadProgram p i es =>
    simp only [takeCommand, takeLoadProgram]
    split
    · exact .refused _
    · split
      · split
        · exact .refused _
        · split
          · exact .refused _
          · exact .done _ _ (.inl rfl)
      · exact .refused _
  | selectPage p =>
    simp only [takeCommand, takeSelectPage]
    split
    · exact .refused _
    · exact .done _ _ (.inl rfl)
  | rollCallAssign m b =>
    simp only [takeCommand, takeRollCallAssign]
    split
    · exact .done _ _ (.inl rfl)
    · split
      · exact .done _ _ (.inl rfl)
      · exact .refused _
    · split
      · exact .done _ _ (.inl rfl)
      · exact .refused _
    · exact .refused _
  | setBalance | setFade | loadBalanceCurve | loadFadeCurve | stepVolume | loadVolumeCurve | setZoneOptions
    | setSpeedPolicy => exact .done _ _ (clampedIf_taken _)
  | setZoneMute | setDuck | setNoticeEnable | rollCall => exact .done _ _ (.inl rfl)
  | statusPoll | readMeters => exact .data _ _

/-! ### A sound assembler and sender -/

/-- The assembler holds as many words as its header says are not outstanding (R155). -/
def AssemblerSound (a : Assembler) : Prop :=
  (∀ h n ws, a = .collecting h n ws → 1 ≤ n ∧ ws.length + n = h.count.toNat) ∧ ∀ n, a = .skipping n → 1 ≤ n ∧ n ≤ 255

/-- Only an answer without data words defers an effect (R154, R159). -/
def SenderSound (x : Sender) : Prop := ∀ w rest d, x = .answering w rest d → d ≠ .nothing → rest = []

theorem portInv_iff : PortInv s ↔
    s.port.misses ≤ 3 ∧ AssemblerSound s.port.assembler ∧ SenderSound s.port.sender :=
  ⟨fun h => ⟨h.misses, ⟨h.collecting, h.skipping⟩, h.deferred⟩, fun ⟨h, ⟨hc, hk⟩, hd⟩ => ⟨h, hc, hk, hd⟩⟩

theorem assemblerSound_idle : AssemblerSound .idle := ⟨fun _ _ _ e => (by cases e), fun _ e => (by cases e)⟩

theorem senderSound_quiet : SenderSound .quiet := fun _ _ _ e => by cases e

/-- From `s` to `t` the pins, the queue, the lock and the miss count stand, and a sound assembler and sender stay so. -/
structure PortStep (s t : State) : Prop where
  pins : t.pins = s.pins
  pending : t.pending = s.pending
  lock : t.port.lock = s.port.lock
  misses : t.port.misses = s.port.misses
  assembler : AssemblerSound s.port.assembler → AssemblerSound t.port.assembler
  sender : SenderSound s.port.sender → SenderSound t.port.sender

theorem PortStep.refl (s : State) : PortStep s s := ⟨rfl, rfl, rfl, rfl, id, id⟩

theorem PortStep.trans (h : PortStep s t) (g : PortStep t u) : PortStep s u :=
  ⟨g.pins.trans h.pins, g.pending.trans h.pending, g.lock.trans h.lock, g.misses.trans h.misses,
    g.assembler ∘ h.assembler, g.sender ∘ h.sender⟩

/-- An act that leaves the Ring Port's assembler and sender alone. -/
theorem PortStep.of_same (hp : t.pins = s.pins) (hq : t.pending = s.pending) (hl : t.port.lock = s.port.lock)
    (hm : t.port.misses = s.port.misses) (ha : t.port.assembler = s.port.assembler)
    (hs : t.port.sender = s.port.sender) : PortStep s t :=
  ⟨hp, hq, hl, hm, fun h => by rw [ha]; exact h, fun h => by rw [hs]; exact h⟩

theorem PortStep.onlyPages (g : OnlyPagesMove s t) : PortStep s t :=
  .of_same g.pins g.pending (by rw [g.port]) (by rw [g.port]) (by rw [g.port]) (by rw [g.port])

theorem portStep_setAssembler {a : Assembler} (h : AssemblerSound s.port.assembler → AssemblerSound a) :
    PortStep s (setAssembler a s) := ⟨rfl, rfl, rfl, rfl, h, id⟩

theorem portStep_setSender {x : Sender} (h : SenderSound s.port.sender → SenderSound x) : PortStep s (setSender x s) :=
  ⟨rfl, rfl, rfl, rfl, id, h⟩

theorem portStep_notify (k : NoticeKind) : PortStep s (notify k s) :=
  .of_same (by simp) (by simp) (by simp) (by simp) (by simp) (by simp)

theorem portStep_mapOut (f : OutFrame → OutFrame) : PortStep s (mapOut f s) := .of_same rfl rfl rfl rfl rfl rfl

theorem portStep_takeCommand (z : Zone) (c : Command) : PortStep s (takeCommand z s c).state :=
  have f := takeCommand_frame (s := s) z c
  .of_same f.pins f.pending f.lock f.misses f.assembler f.sender

theorem portStep_applyDeferred (d : Deferred) : PortStep s (applyDeferred d s).state := by
  cases d <;> exact .of_same rfl rfl rfl rfl rfl rfl

theorem portStep_leaveAnswering : PortStep s (leaveAnswering s).state := by
  unfold leaveAnswering
  split
  · exact .refl s
  · exact (portStep_setSender fun _ => senderSound_quiet).trans (portStep_applyDeferred _)

theorem senderSound_taken {x : Taken} (h : TakenShape s x) (w : Word32) : SenderSound (.answering w x.data x.after) := by
  rintro _ _ _ ⟨⟩ hd
  cases h with
  | done | refused | data => exact absurd rfl hd
  | deferred => rfl

theorem portStep_answerMessage (r : Route) (sp : BitVec 4) (k : BitVec 8) (m : Reading) :
    PortStep s (answerMessage r sp k m s) := by
  unfold answerMessage
  split
  · exact portStep_setSender fun _ => senderSound_taken (.refused (s := s) .unknownCommand) _
  · exact portStep_setSender fun _ => senderSound_taken (.refused (s := s) .badLength) _
  · exact (portStep_takeCommand _ _).trans (portStep_setSender fun _ => senderSound_taken (takeCommand_shape _ _ _) _)

theorem portStep_broadcastMessage (r : Route) (sp : BitVec 4) (k : BitVec 8) (m : Reading) :
    PortStep s (broadcastMessage r sp k m s).state := by
  unfold broadcastMessage
  split
  · exact .refl s
  · exact .refl s
  · split
    · exact .refl s
    · exact (portStep_takeCommand _ _).trans (portStep_applyDeferred _)

theorem portStep_judgeMessage (r : Route) (sp : BitVec 4) (k : BitVec 8) (m : Reading) :
    PortStep s (judgeMessage r sp k m s).state := by
  unfold judgeMessage
  split
  · exact portStep_broadcastMessage ..
  · split
    · exact portStep_notify _
    · exact portStep_answerMessage ..

theorem portStep_markRoll : PortStep s (markRoll s) := by
  unfold markRoll
  split
  · exact .refl s
  · exact portStep_mapOut _

theorem portStep_idle : PortStep s (setAssembler .idle s) := portStep_setAssembler fun _ => assemblerSound_idle

theorem portStep_completeMessage (h : Header) (ws : List Payload) : PortStep s (completeMessage h ws s).state :=
  portStep_idle.trans (portStep_judgeMessage ..)

theorem assemblerSound_start (h : Header) (hn : h.count.toNat ≠ 0) :
    AssemblerSound (.collecting h h.count.toNat []) ∧ AssemblerSound (.skipping h.count.toNat) := by
  have lt := h.count.isLt
  refine ⟨⟨?_, fun _ e => (by cases e)⟩, fun _ _ _ e => (by cases e), ?_⟩
  · rintro _ _ _ ⟨⟩
    exact ⟨Nat.one_le_iff_ne_zero.mpr hn, by simp⟩
  · rintro _ ⟨⟩
    omega

theorem portStep_startMessage (h : Header) : PortStep s (startMessage h s).state := by
  dsimp only [startMessage]
  have first : PortStep s
      (if (h.route.address == broadcast && isRollCall h.space h.command) = true then markRoll s else s) := by
    split
    · exact portStep_markRoll
    · exact .refl s
  generalize (if (h.route.address == broadcast && isRollCall h.space h.command) = true then markRoll s else s) = v
    at first ⊢
  refine first.trans ?_
  split
  · split
    · exact portStep_completeMessage ..
    · exact portStep_setAssembler fun _ => (assemblerSound_start h ‹_›).1
  · split
    · exact portStep_idle
    · exact portStep_setAssembler fun _ => (assemblerSound_start h ‹_›).2

theorem portStep_abandonMessage : PortStep s (abandonMessage s) := by
  unfold abandonMessage
  split
  · exact .refl s
  · exact portStep_idle.trans (portStep_notify _)
  · exact portStep_idle

theorem portStep_takePayload (w : Payload) : PortStep s (takePayload w s).state := by
  unfold takePayload
  split
  · exact .refl s
  · rename_i h n ws ha
    split
    · exact portStep_completeMessage ..
    · refine portStep_setAssembler fun hs => ⟨?_, fun _ e => (by cases e)⟩
      rintro _ _ _ ⟨⟩
      obtain ⟨hn, hlen⟩ := hs.1 h n ws ha
      rw [List.length_append, List.length_singleton]
      omega
  · rename_i n ha
    refine portStep_setAssembler fun hs => ?_
    split
    · exact assemblerSound_idle
    · refine ⟨fun _ _ _ e => (by cases e), ?_⟩
      rintro _ ⟨⟩
      have := hs.2 n ha
      omega

theorem portStep_takeClear : PortStep s (takeClear s).state := portStep_idle.trans portStep_leaveAnswering

theorem portStep_takeControlWord (w : Word32) : PortStep s (takeControlWord w s).state := by
  unfold takeControlWord
  split
  · exact .refl s
  · exact portStep_abandonMessage.trans (portStep_startMessage _)
  · exact portStep_takePayload _
  · exact portStep_takeClear

theorem portStep_missSync : PortStep s (missSync s).state := portStep_abandonMessage.trans portStep_leaveAnswering

theorem portStep_writeAnswer : PortStep s (writeAnswer s).state := by
  unfold writeAnswer
  split
  · exact .refl s
  · rename_i w rest after hs
    dsimp only
    have first : PortStep s (mapOut (onFields fun f => { f with answer := w }) s) := portStep_mapOut _
    refine first.trans ?_
    split
    · exact portStep_leaveAnswering
    · rename_i v vs
      refine portStep_setSender fun h => ?_
      rintro _ _ _ ⟨⟩ hd
      cases h w (v :: vs) after hs hd

theorem portStep_controlAct {control : State → Turn} (hc : ∀ s, PortStep s (control s).state) :
    PortStep s (controlAct control s).state := by
  unfold controlAct
  split
  · exact hc s
  · exact (hc s).trans portStep_writeAnswer

/-! ### The acts of a frame -/

theorem portStep_requestAct : PortStep s (requestAct s) := by
  unfold requestAct
  split
  · exact portStep_mapOut _
  · exact .refl s

theorem portStep_metersAct (view : View) (runs : Runs) : PortStep s (metersAct view runs s) :=
  .of_same (by simp [metersAct]) (by simp [metersAct]) (by simp [metersAct]) (by simp [metersAct]) (by simp [metersAct])
    (by simp [metersAct])

theorem portStep_countLane (l : Lane) : PortStep s (countLane l s) := by
  dsimp only [countLane]
  split <;> exact .of_same rfl rfl rfl rfl rfl rfl

theorem portStep_expiry : PortStep s (expiry s) :=
  .of_same (by simp [expiry]) (by simp [expiry]) (by simp [expiry]) (by simp [expiry]) (by simp [expiry]) (by simp [expiry])

theorem portStep_countStaleness : PortStep s (countStaleness s) := by
  unfold countStaleness
  split
  · split
    · exact portStep_expiry
    · exact .of_same rfl rfl rfl rfl rfl rfl
  · exact .refl s

theorem portStep_takeDuckSample : PortStep s (takeDuckSample s) := by
  dsimp only [takeDuckSample]
  split
  · exact .of_same (by simp) (by simp) (by simp) (by simp) (by simp) (by simp)
  · exact .of_same rfl rfl rfl rfl rfl rfl

theorem portStep_countDuck : PortStep s (countDuck s) := by
  unfold countDuck
  split
  · exact portStep_takeDuckSample
  · exact .of_same rfl rfl rfl rfl rfl rfl

theorem portStep_audioAct (x : FrameCtx) (r : FrameRun) : PortStep r.state (audioAct x r).state :=
  .of_same (by simp [audioAct, storeAudio]) (by simp [audioAct, storeAudio]) (by simp [audioAct, storeAudio])
    (by simp [audioAct, storeAudio]) (by simp [audioAct, storeAudio]) (by simp [audioAct, storeAudio])

theorem portStep_runStep {x : FrameCtx} (hc : ∀ s, PortStep s (x.control s).state) (r : FrameRun) (a : FrameStep) :
    PortStep r.state (runStep x r a).state := by
  cases a with
  | audio => exact portStep_audioAct x r
  | act a =>
    cases a with
    | control => exact portStep_controlAct hc
    | request => exact portStep_requestAct
    | meters => exact portStep_metersAct _ _
    | fades => exact .onlyPages (onlyPages_fadesAct _ _)
    | count l => exact portStep_countLane l
    | staleness => exact portStep_countStaleness
    | duckLine => exact portStep_countDuck

theorem portStep_runActs {x : FrameCtx} (hc : ∀ s, PortStep s (x.control s).state) (order : FrameOrder) (routing : Bool)
    (s : State) : PortStep s (runActs x order routing s).state := by
  unfold runActs
  have steps (l : List FrameStep) : ∀ r : FrameRun, PortStep r.state (l.foldl (runStep x) r).state := by
    induction l with
    | nil => exact fun r => .refl _
    | cons a l ih => exact fun r => (portStep_runStep hc r a).trans (ih _)
  exact steps (schedule order routing) { state := s, reset := false, runs := Vector.replicate 24 none }

end Sys2Proof.Machine
end

section
/-! What a row comes to for the Ring Port, and the Ring Port's invariants as invariants of every step (R148, R149, R155,
R157, R160). -/

namespace Sys2Proof.Machine

variable {s t u : State}

/-! ### Hands emptied -/

theorem notify_ctrlLost (s : State) : notify .ctrlLost s =
    { s with notices.pending.ctrlLost := s.notices.pending.ctrlLost || s.notices.enabled.ctrlLost } := by
  unfold notify
  cases h : s.notices.enabled.ctrlLost <;> simp [hasKind, addKind, h]

/-- The message in hand is dropped, with CTRL_LOST where it was being collected (R149, R151, R152, R155). -/
theorem abandonMessage_eq (s : State) : abandonMessage s = { s.collectingLost with port.assembler := .idle } := by
  unfold abandonMessage State.collectingLost
  split
  · rename_i h; simp [h, isCollecting]; rw [← h]
  · rename_i h; rw [notify_ctrlLost, h]; simp [isCollecting, setAssembler]
  · rename_i h; rw [h]; simp [isCollecting, setAssembler]

/-- The sender is QUIET and what it had deferred takes effect (R154, R157, R159). -/
theorem leaveAnswering_eq (s : State) : leaveAnswering s = applyDeferred s.port.sender.deferred (setSender .quiet s) := by
  unfold leaveAnswering
  split
  · rename_i h
    rw [h]
    simp only [Sender.deferred, applyDeferred, setSender]
    rw [← h]
  · rename_i h; rw [h]; rfl

theorem missSync_eq (s : State) : missSync s = applyDeferred s.port.sender.deferred s.handsEmpty := by
  unfold missSync
  rw [leaveAnswering_eq, abandonMessage_eq]
  rfl

/-- What takes effect changes the own address and the twin mode at most. -/
theorem applyDeferred_eq (d : Deferred) (s : State) : ∃ a tw, (applyDeferred d s).state =
    { s with port.address := a, port.twin := tw } := by
  cases d <;> exact ⟨_, _, rfl⟩

/-! ### The lock loss -/

/-- The Ring Port's part of the lock loss (R149): UNLOCKED, the held samples zero and the output delays empty. -/
def unlocked (s : State) : State :=
  { setLock .unlocked 0 s with port.held := Vector.replicate 8 0, port.delays := Vector.replicate 24 Delay.empty }

theorem loseLock_eq : loseLock s =
    { missSync (unlocked s) with state := zeroAllChains (schedLockLoss (missSync (unlocked s)).state) } := rfl

/-! ### What a row comes to -/

/-- What a row comes to for the pins, the queue and the Ring Port. -/
inductive RowOutcome (s : State) : State → Prop
  /-- the blocks are at their reset values -/
  | blocks (pins : Pins) (a : Fin 31) (tw : Bool) (o : Option OutFrame) :
      RowOutcome s (State.blocksReset pins a tw o s.pending)
  /-- nothing, but for the frame that leaves and the DUCK pin -/
  | still (o : Option OutFrame) (duck : Bool) : RowOutcome s { s with ringOut := o, pins.duck := duck }
  /-- the part is not LOCKED and starts or gives up acquiring -/
  | search (l : Lock) (o : Option OutFrame) (pin : s.pins.reset = false) (before : s.port.lock ≠ .locked)
      (after : l ≠ .locked) : RowOutcome s { setLock l 0 s with ringOut := o }
  /-- the LOCKED part acts, or an ACQUIRING one locks and acts -/
  | heard (t : State) (pin : s.pins.reset = false) (pins : t.pins.reset = false) (pending : t.pending = s.pending)
      (lock : t.port.lock = .locked) (misses : t.port.misses ≤ 3 ∨ t.port.misses = s.port.misses)
      (assembler : AssemblerSound s.port.assembler → AssemblerSound t.port.assembler)
      (sender : SenderSound s.port.sender → SenderSound t.port.sender) : RowOutcome s t
  /-- the lock is lost -/
  | lost (o : Option OutFrame) (pin : s.pins.reset = false) (locked : s.port.lock = .locked) :
      RowOutcome s { zeroAllChains (schedLockLoss (missSync (unlocked s)).state) with ringOut := o }
  /-- an answer's new address takes effect -/
  | readdressed (a : Fin 31) (tw : Bool) (answering : s.port.sender ≠ .quiet) :
      RowOutcome s { s with port.sender := .quiet, port.address := a, port.twin := tw }

/-- An act of the LOCKED part, and the device reset it may bring. -/
theorem RowOutcome.act {v : State} {k : Turn} (pin : s.pins.reset = false) (hpin : v.pins.reset = false)
    (pending : v.pending = s.pending) (lock : v.port.lock = .locked)
    (misses : v.port.misses ≤ 3 ∨ v.port.misses = s.port.misses) (assembler : v.port.assembler = s.port.assembler)
    (sender : v.port.sender = s.port.sender) (h : PortStep v k.state) : RowOutcome s k.finish := by
  unfold Turn.finish
  split
  · have e : k.state.pending = s.pending := h.pending.trans pending
    unfold deviceReset
    rw [e]
    exact .blocks _ _ _ _
  · exact .heard _ pin (by rw [h.pins]; exact hpin) (h.pending.trans pending) (h.lock.trans lock)
      (by rw [h.misses]; exact misses) (fun g => h.assembler (by rw [assembler]; exact g))
      (fun g => h.sender (by rw [sender]; exact g))

theorem listening_iff : listening s = true ↔ s.pins.reset = false ∧ s.port.lock = .locked := by
  simp [listening]

/-- The same from the state itself, where the part takes commands. -/
theorem RowOutcome.turn {k : Turn} (hl : listening s = true) (h : PortStep s k.state) : RowOutcome s k.finish := by
  obtain ⟨hpin, hlock⟩ := listening_iff.mp hl
  exact .act hpin hpin rfl hlock (.inr rfl) rfl rfl h

theorem RowOutcome.plain (hl : listening s = true) (h : PortStep s t) : RowOutcome s t :=
  RowOutcome.turn (k := ⟨t, false⟩) hl h

theorem RowOutcome.none (s : State) : RowOutcome s s := .still s.ringOut s.pins.duck

theorem samplePath_outcome {control : State → Turn} (hc : ∀ v, PortStep v (control v).state) {v : State} (out slots)
    (duckPin : Bool) (order : FrameOrder) (pin : s.pins.reset = false) (hpin : v.pins.reset = false)
    (pending : v.pending = s.pending) (lock : v.port.lock = .locked)
    (misses : v.port.misses ≤ 3 ∨ v.port.misses = s.port.misses) (assembler : v.port.assembler = s.port.assembler)
    (sender : v.port.sender = s.port.sender) : RowOutcome s (samplePath control out slots duckPin order v) := by
  dsimp only [samplePath]
  refine RowOutcome.act (v := { v with pins.duck := duckPin, ringOut := some out }) pin hpin pending lock misses assembler
    sender ?_
  exact (portStep_runActs hc order _ _).trans (portStep_mapOut _)

theorem goodSync_outcome {g : RingFrame} {path : State → State}
    (hp : ∀ v, s.pins.reset = false → v.pins.reset = false → v.pending = s.pending → v.port.lock = .locked → v.port.misses ≤ 3 →
      v.port.assembler = s.port.assembler → v.port.sender = s.port.sender → RowOutcome s (path v)) :
    RowOutcome s (goodSync g path s) := by
  unfold goodSync
  split
  · exact .still _ _
  · rename_i hpin
    have hpin : s.pins.reset = false := by simpa using hpin
    split
    · exact .search _ _ hpin (by simp_all) (by simp)
    · refine hp _ hpin ?_ ?_ ?_ ?_ ?_ ?_ <;> simp [relock, setSpeed, rampRelock, setLock, hpin]
    · refine hp _ hpin ?_ ?_ ?_ ?_ ?_ ?_ <;> simp [setLock, hpin]

theorem intactFrame_outcome (f : FrameFields) (duckPin : Bool) (order : FrameOrder) (v : State)
    (pin : s.pins.reset = false) (hpin : v.pins.reset = false) (pending : v.pending = s.pending)
    (lock : v.port.lock = .locked) (misses : v.port.misses ≤ 3) (assembler : v.port.assembler = s.port.assembler)
    (sender : v.port.sender = s.port.sender) : RowOutcome s (intactFrame f duckPin order v) :=
  samplePath_outcome (fun _ => portStep_takeControlWord _) _ _ _ _ pin hpin pending lock (.inl misses) assembler sender

theorem damagedPath_outcome (f : FrameFields) (check : BitVec 16) (duckPin : Bool) (order : FrameOrder) (v : State)
    (pin : s.pins.reset = false) (hpin : v.pins.reset = false) (pending : v.pending = s.pending)
    (lock : v.port.lock = .locked) (misses : v.port.misses ≤ 3) (assembler : v.port.assembler = s.port.assembler)
    (sender : v.port.sender = s.port.sender) : RowOutcome s (damagedPath f check duckPin order v) :=
  samplePath_outcome (fun _ => portStep_abandonMessage) _ _ _ _ pin hpin pending lock (.inl misses) assembler sender

theorem blocksReset_out (pins a tw o q o') : { State.blocksReset pins a tw o q with ringOut := o' } =
    State.blocksReset pins a tw o' q := by
  unfold State.blocksReset
  rfl

theorem blocksReset_pin (pins a tw o q o') (duck : Bool) :
    { State.blocksReset pins a tw o q with ringOut := o', pins.duck := duck } =
    State.blocksReset { pins with duck := duck } a tw o' q := by
  unfold State.blocksReset
  rfl

/-- The end of an act, the frame that leaves being replaced. -/
theorem Turn.finish_out (k : Turn) (o : Option OutFrame) : { k.finish with ringOut := o } =
    (⟨{ k.state with ringOut := o }, k.reset⟩ : Turn).finish := by
  unfold Turn.finish
  split
  · exact blocksReset_out ..
  · rfl

theorem noSync_outcome (hpin : s.pins.reset = false) (o : Option OutFrame) :
    RowOutcome s { noSync s with ringOut := o } := by
  unfold noSync
  split
  · exact .still o s.pins.duck
  · rename_i hl
    exact .search _ _ hpin (by rw [hl]; simp) (by simp)
  · rename_i hl
    split
    · rename_i hm
      rw [Turn.finish_out]
      refine RowOutcome.act (v := setLock .locked (s.port.misses + 1) s) hpin hpin rfl rfl (.inl ?_) rfl rfl
        (portStep_missSync.trans (.of_same rfl rfl rfl rfl rfl rfl))
      change s.port.misses + 1 ≤ 3
      omega
    · rw [Turn.finish_out, loseLock_eq]
      unfold Turn.finish
      split
      · unfold deviceReset
        have e : (zeroAllChains (schedLockLoss (missSync (unlocked s)).state)).pending = s.pending :=
          (by simp : _ = (schedLockLoss (missSync (unlocked s)).state).pending).trans
            (onlyPages_schedLockLoss.pending.trans portStep_missSync.pending)
        rw [e]
        exact .blocks _ _ _ _
      · exact .lost o hpin hl

theorem deliver_outcome (r : Route) (c : Command) : RowOutcome s (deliver r c s) := by
  unfold deliver
  split
  · rename_i h
    rw [Bool.and_eq_true] at h
    exact .turn h.1 (portStep_judgeMessage ..)
  · exact .none s

theorem portStep_rollCallHeader (r : Route) : PortStep s (rollCallHeader r s) := by
  unfold rollCallHeader
  split
  · exact portStep_markRoll.trans (portStep_mapOut _)
  · exact .refl s

theorem rollCall_outcome (r : Route) : RowOutcome s (deliver r .rollCall (rollCallHeader r s)) := by
  have header := portStep_rollCallHeader (s := s) r
  have heard : listening (rollCallHeader r s) = listening s := by unfold listening; rw [header.pins, header.lock]
  cases hl : listening s with
  | true =>
    unfold deliver
    split
    · exact .turn hl (header.trans (portStep_judgeMessage ..))
    · exact .plain hl header
  | false =>
    rw [deliver_unheard (.inl (heard.trans hl))]
    unfold rollCallHeader
    rw [hl]
    exact .none s

/-- Every row completes, and comes to one of these. -/
theorem exec_outcome (i : Instr) (s : State) : ∃ t, exec i s = .next t ∧ RowOutcome s t := by
  cases i with
  | resetPinAsserted => exact ⟨_, rfl, .blocks _ _ _ _⟩
  | resetPinReleased st tw => exact ⟨_, rfl, .blocks _ _ _ _⟩
  | syncFound f =>
    refine ⟨_, rfl, ?_⟩
    split
    · exact .still _ _
    · rename_i hpin
      split
      · rename_i hl
        exact .search _ _ (by simpa using hpin) (by rw [hl]; simp) (by simp)
      · exact .none s
      · exact .none s
  | frame f d o =>
    exact ⟨_, rfl, goodSync_outcome fun v pin hpin => intactFrame_outcome f d o v pin hpin⟩
  | damagedFrame f ck d o =>
    refine ⟨_, rfl, goodSync_outcome fun v pin hpin => ?_⟩
    split
    · exact intactFrame_outcome f d o v pin hpin
    · exact damagedPath_outcome f ck d o v pin hpin
  | syncBad f =>
    refine ⟨_, rfl, ?_⟩
    unfold passUntouched
    split
    · exact .still _ _
    · exact noSync_outcome (Bool.not_eq_true _ ▸ ‹¬ _›) _
  | syncMissing =>
    refine ⟨_, rfl, ?_⟩
    split
    · exact .still _ _
    · exact noSync_outcome (Bool.not_eq_true _ ▸ ‹¬ _›) _
  | clear =>
    refine ⟨_, rfl, ?_⟩
    split
    · exact .turn ‹_› portStep_takeClear
    · exact .none s
  | newAddressTakesEffect =>
    refine ⟨_, rfl, ?_⟩
    split
    · rename_i hs
      unfold leaveAnswering
      rw [hs]
      exact .readdressed _ _ (by rw [hs]; simp)
    all_goals exact .none s
  | deviceResetTakesEffect =>
    refine ⟨_, rfl, ?_⟩
    split
    · rename_i hs
      unfold leaveAnswering
      rw [hs]
      exact .blocks _ _ _ _
    all_goals exact .none s
  | fadeComplete i =>
    refine ⟨_, rfl, ?_⟩
    split
    · split
      · rename_i h
        exact .plain h.1 (.onlyPages ((onlyPages_completeFade _).trans (onlyPages_resettle _)))
      · exact .none s
    · exact .none s
  | queueGrant i =>
    refine ⟨_, rfl, ?_⟩
    split
    · split
      · exact .plain ‹_› (.onlyPages ((onlyPages_grantHead _).trans (onlyPages_resettle _)))
      · exact .none s
    all_goals exact .none s
  | laneTick l =>
    refine ⟨_, rfl, ?_⟩
    split
    · rename_i h
      exact .plain h.1 (.of_same rfl rfl rfl rfl rfl rfl)
    · exact .none s
  | stalenessExpiry =>
    refine ⟨_, rfl, ?_⟩
    split
    · rename_i h
      exact .plain h.1 portStep_expiry
    · exact .none s
  | duckSample p =>
    refine ⟨_, rfl, ?_⟩
    split
    · rename_i h
      have k := portStep_takeDuckSample (s := setDuckPin p s)
      obtain ⟨hpin, hlock⟩ := listening_iff.mp h.1
      exact .act (v := setDuckPin p s) (k := ⟨_, false⟩) hpin hpin rfl hlock (.inr rfl) rfl rfl k
    · exact .still s.ringOut p
  | rollCall r => exact ⟨_, rfl, rollCall_outcome r⟩
  | _ => exact ⟨_, rfl, deliver_outcome _ _⟩

/-- Settles O2: every row gives a next state, and none touches the queue. -/
theorem everyCommandCompletes : Obligations.EveryCommandCompletes := by
  intro i s
  obtain ⟨t, e, h⟩ := exec_outcome i s
  refine ⟨t, e, ?_⟩
  cases h with
  | blocks => rfl
  | still => rfl
  | search => rfl
  | heard _ _ _ pending => exact pending
  | lost =>
    exact (by simp : _ = (schedLockLoss (missSync (unlocked s)).state).pending).trans
            (onlyPages_schedLockLoss.pending.trans portStep_missSync.pending)
  | readdressed => rfl

/-! ### The Ring Port's invariants -/

theorem portInv_blocksReset (pins a tw o q) : PortInv (State.blocksReset pins a tw o q) :=
  portInv_iff.mpr ⟨Nat.zero_le _, assemblerSound_idle, senderSound_quiet⟩

theorem zeroLost_port : (zeroAllChains (schedLockLoss s)).port = s.port :=
  (onlyPages_schedLockLoss.trans onlyPages_zeroAllChains).port

/-- The Ring Port after the lock loss: nothing in hand (R149). -/
theorem lost_port : ∃ a tw, (zeroAllChains (schedLockLoss (missSync (unlocked s)).state)).port =
    { lock := .unlocked, misses := 0, held := Vector.replicate 8 0, delays := Vector.replicate 24 Delay.empty,
      assembler := .idle, sender := .quiet, address := a, twin := tw } := by
  obtain ⟨a, tw, e⟩ := applyDeferred_eq s.port.sender.deferred (unlocked s).handsEmpty
  refine ⟨a, tw, ?_⟩
  rw [zeroLost_port, missSync_eq]
  exact congrArg State.port e

theorem RowOutcome.portInv (h : RowOutcome s t) (g : PortInv s) : PortInv t := by
  obtain ⟨hm, ha, hs⟩ := portInv_iff.mp g
  cases h with
  | blocks => exact portInv_blocksReset ..
  | still => exact portInv_iff.mpr ⟨hm, ha, hs⟩
  | search => exact portInv_iff.mpr ⟨Nat.zero_le _, ha, hs⟩
  | heard _ _ _ _ _ misses assembler sender =>
    exact portInv_iff.mpr ⟨misses.elim id fun e => e ▸ hm, assembler ha, sender hs⟩
  | lost o pin locked =>
    obtain ⟨a, tw, e⟩ := lost_port (s := s)
    generalize zeroAllChains (schedLockLoss (missSync (unlocked s)).state) = v at e
    refine portInv_iff.mpr ⟨?_, ?_, ?_⟩
    · rw [e]; exact Nat.zero_le _
    · rw [e]; exact assemblerSound_idle
    · rw [e]; exact senderSound_quiet
  | readdressed => exact portInv_iff.mpr ⟨hm, ha, senderSound_quiet⟩

theorem lost_pins : (zeroAllChains (schedLockLoss (missSync (unlocked s)).state)).pins = s.pins :=
  (onlyPages_schedLockLoss.trans onlyPages_zeroAllChains).pins.trans portStep_missSync.pins

theorem RowOutcome.heldInReset (h : RowOutcome s t) (g : HeldInReset s) : HeldInReset t := by
  intro ht
  cases h with
  | blocks => rfl
  | still o duck =>
    have e := g ht
    generalize hpins : s.pins = pins at e
    generalize s.port.address = a at e
    generalize s.port.twin = tw at e
    generalize s.ringOut = o' at e
    generalize s.pending = q at e
    subst e
    exact blocksReset_pin ..
  | search l o pin => exact absurd (pin.symm.trans ht) (by decide)
  | heard _ _ pins => exact absurd (pins.symm.trans ht) (by decide)
  | lost o pin =>
    have e := lost_pins (s := s)
    generalize zeroAllChains (schedLockLoss (missSync (unlocked s)).state) = v at e ht
    exact absurd ((pin.symm.trans (congrArg Pins.reset e).symm).trans ht) (by decide)
  | readdressed a tw answering =>
    have e := g ht
    exact absurd (congrArg (fun v : State => v.port.sender) e) answering

theorem lostInv_blocksReset (pins a tw o q) : LostInv (State.blocksReset pins a tw o q) := by
  constructor <;> intros <;>
    simp [State.blocksReset, RingPort.reset, Scheduler.reset, Switch.steadyOn]

theorem RowOutcome.lostInv (h : RowOutcome s t) (hs : SchedInv s) (g : LostInv s) : LostInv t := by
  cases h with
  | blocks => exact lostInv_blocksReset ..
  | still => exact ⟨g.misses, g.assembler, g.sender, g.held, g.delays, g.slots, g.queue, g.steady⟩
  | search l o pin before after =>
    exact ⟨fun _ => rfl, fun _ => g.assembler before, fun _ => g.sender before, fun _ => g.held before,
      fun _ => g.delays before, fun _ => g.slots before, fun _ => g.queue before, fun _ => g.steady before⟩
  | heard _ _ _ _ lock => constructor <;> exact fun hn => absurd lock hn
  | lost o pin locked =>
    obtain ⟨a, tw, e⟩ := lost_port (s := s)
    have w : SchedInv (missSync (unlocked s)).state :=
      (keptSched.missSync (unlocked s) ⟨hs.of_same (.of_eq rfl rfl rfl), trivial⟩).1
    have rest := w.sound.laws.allLost_rest
    have laws := SchedActs.laws w.sound.laws.allLost_acts w.sound.laws
    have sched : SameSched (allLost (missSync (unlocked s)).state)
        (zeroAllChains (schedLockLoss (missSync (unlocked s)).state)) := by
      rw [w.sound.laws.schedLockLoss_eq]
      exact (sameSched_resettleZones true true).trans (.of_eq (by simp) (by simp) (by simp))
    have slots := sched.slots.trans (laws.slots_of_rest rest)
    have queue := sched.queue.trans (laws.queue_of_rest rest)
    have steady (c : Chan) : Rests (zeroAllChains (schedLockLoss (missSync (unlocked s)).state)) c := by
      unfold Rests; rw [sched.switch]; exact rest c
    generalize zeroAllChains (schedLockLoss (missSync (unlocked s)).state) = v at e slots queue steady
    exact ⟨fun _ => by rw [e], fun _ => by rw [e], fun _ => by rw [e], fun _ i => by rw [e]; simp,
      fun _ c => by rw [e]; simp, fun _ i => by rw [slots]; simp, fun _ => queue, fun _ => steady⟩
  | readdressed a tw answering =>
    exact ⟨g.misses, g.assembler, fun _ => rfl, g.held, g.delays, g.slots, g.queue, g.steady⟩

theorem step_outcome {i : Instr} (e : exec i s = .next t) : RowOutcome s t := by
  obtain ⟨u, eu, h⟩ := exec_outcome i s
  rw [eu] at e
  cases e
  exact h

/-- A step is a row on the state with the queue's rest, or idles. -/
theorem step_cases (e : step s = .next t) : t = s ∨ ∃ rest, RowOutcome { s with pending := rest } t := by
  unfold step at e
  split at e
  · cases e; exact .inl rfl
  · rename_i c rest _
    exact .inr ⟨rest, step_outcome e⟩

theorem HeldInReset.dequeue (h : HeldInReset s) (rest : List Instr) : HeldInReset { s with pending := rest } := by
  intro hpin
  have e := h hpin
  generalize s.pins = pins at e
  generalize s.port.address = a at e
  generalize s.port.twin = tw at e
  generalize s.ringOut = o at e
  generalize s.pending = q at e
  subst e
  unfold State.blocksReset
  rfl

/-- Settles O58: each of the things a row can come to keeps the three invariants. -/
theorem portKept : Obligations.PortKept := by
  refine ⟨fun s t e => ?_, fun s t hs h e => ?_⟩
  · rcases step_cases e with rfl | ⟨rest, o⟩
    · exact ⟨id, id⟩
    · exact ⟨fun h => o.portInv ⟨h.misses, h.collecting, h.skipping, h.deferred⟩, fun h => o.heldInReset (h.dequeue rest)⟩
  · rcases step_cases e with rfl | ⟨rest, o⟩
    · exact h
    · exact o.lostInv (hs.of_same (.of_eq rfl rfl rfl))
        ⟨h.misses, h.assembler, h.sender, h.held, h.delays, h.slots, h.queue, h.steady⟩

end Sys2Proof.Machine
end

section
/-! The queue, the reset pin and the lock (R148 to R153, R160). -/

namespace Sys2Proof.Machine

variable {s t u : State}

/-- Settles O1: by the two cases of the queue. -/
theorem stepRunsFront : Obligations.StepRunsFront :=
  ⟨fun c rest s h => by unfold step; rw [h], fun s h => by unfold step; rw [h]⟩

theorem strapAddress_val (straps : BitVec 5) : (strapAddress straps).val = min 30 straps.toNat := by
  unfold strapAddress; split <;> simp <;> omega

/-- Settles O3: the three values of a block record, read back. -/
theorem resetPin : Obligations.ResetPin := by
  refine ⟨fun s => rfl, fun straps twin s => ⟨strapAddress straps, strapAddress_val straps, rfl⟩,
    fun pins n twin o q => ?_⟩
  dsimp only
  refine ⟨rfl, rfl, rfl, rfl, rfl, rfl, fun i => ⟨?_, ?_⟩, fun c => ?_, fun i => ?_, fun i => ?_, rfl, rfl, rfl, rfl,
    fun k => ?_, fun z => ?_, rfl, rfl, rfl, fun k => ?_, rfl⟩
  · simp [State.blocksReset, RingPort.reset]
  · simp [State.blocksReset]
  · simp [State.blocksReset, RingPort.reset, Delay.empty, ChannelRecord.reset, Scheduler.reset, Equaliser.reset,
      GainPlanner.reset, LaneValues.reset, OutputStage.reset, programOf]
  · simp [State.blocksReset, Equaliser.reset, Section.reset]
  · simp [State.blocksReset, Scheduler.reset]
  · simp [State.blocksReset, GainPlanner.reset]
  · cases z <;> refine ⟨rfl, rfl, rfl, rfl, rfl, rfl, rfl, rfl, rfl, rfl, rfl, rfl, ?_, fun k hk => ?_, rfl, rfl, rfl⟩
    · simp [State.blocksReset, GainPlanner.reset, ZoneRecord.reset, resetVolumeCurve, PerZone.get]
    · simp [State.blocksReset, GainPlanner.reset, ZoneRecord.reset, resetVolumeCurve, PerZone.get]; omega
    · simp [State.blocksReset, GainPlanner.reset, ZoneRecord.reset, resetVolumeCurve, PerZone.get]
    · simp [State.blocksReset, GainPlanner.reset, ZoneRecord.reset, resetVolumeCurve, PerZone.get]; omega
  · cases k <;> exact ⟨rfl, rfl⟩

/-- Settles O5: the reset state is one of the states whose blocks are at their reset values. -/
theorem invariantsAtReset : Obligations.InvariantsAtReset :=
  ⟨keptLanes.blocksReset .., keptCounters.blocksReset .., keptSpeed.blocksReset .., keptNotices.blocksReset _ _ _ _ _,
    keptMeters.blocksReset .., keptPlan.blocksReset .., keptRouting.blocksReset .., keptPages_disabled.blocksReset ..,
    schedInv_blocksReset .., keptPages_pages.blocksReset .., keptPages_equaliser.blocksReset .., portInv_blocksReset ..,
    lostInv_blocksReset .., fun _ => rfl⟩

/-! ### The doubling table -/

/-- Entry M[r] of the doubling table as a natural number (R2). -/
def entry (r : Fin 48) : Nat := doublingTable.getD r.val 0

theorem doubling_eq (r : Fin 48) : doubling r.val = (entry r : Int) := rfl

/-- The entries round the powers they stand for, in natural numbers; 2 ^ (24 * 48) is written as a product of smaller
powers. -/
theorem entry_rounds : ∀ r : Fin 48, 1 ≤ entry r ∧ (2 * entry r - 1) ^ 48 ≤ (2 ^ 144) ^ 8 * 2 ^ r.val ∧
    (2 ^ 144) ^ 8 * 2 ^ r.val < (2 * entry r + 1) ^ 48 := by decide

theorem entry_rises : ∀ q r : Fin 48, q < r → entry q < entry r := by decide

theorem entry_range : ∀ r : Fin 48, 8388608 ≤ entry r ∧ entry r < 16777216 := by decide

theorem doubling_range (r : Fin 48) : 8388608 ≤ doubling r.val ∧ doubling r.val < 16777216 := by
  have := entry_range r
  rw [doubling_eq]
  omega

/-- Settles O47: by the entries, one by one. -/
theorem doublingTable_rounds : Obligations.DoublingTable := by
  refine ⟨fun r => ?_, fun q r h => ?_, rfl, rfl, doubling_range⟩
  · obtain ⟨pos, lo, hi⟩ := entry_rounds r
    have power : (2 : Int) ^ (24 * 48 + r.val) = (((2 ^ 144) ^ 8 * 2 ^ r.val : Nat) : Int) := by
      rw [pow_add, Nat.cast_mul, Nat.cast_pow, Nat.cast_pow, Nat.cast_pow, ← pow_mul]
      rfl
    have below : 2 * doubling r.val - 1 = ((2 * entry r - 1 : Nat) : Int) := by rw [doubling_eq]; omega
    have above : 2 * doubling r.val + 1 = ((2 * entry r + 1 : Nat) : Int) := by rw [doubling_eq]; omega
    rw [power, below, above]
    exact ⟨by exact_mod_cast lo, by exact_mod_cast hi⟩
  · rw [doubling_eq, doubling_eq]
    exact_mod_cast entry_rises q r h

/-! ### The lock table -/

theorem applyDeferred_finish {s : State} (h : s.port.sender = .quiet) (d : Deferred) :
    (applyDeferred d s).finish = s.once d := by
  cases d with
  | nothing => rfl
  | newAddress a tw => rfl
  | deviceReset =>
    unfold applyDeferred Turn.finish deviceReset keptAddress State.once
    rw [h]
    rfl

theorem missSync_finish (s : State) : (missSync s).finish = s.handsEmpty.once s.port.sender.deferred := by
  rw [missSync_eq, applyDeferred_finish rfl]

theorem once_out (s : State) (d : Deferred) (o : Option OutFrame) :
    { s.once d with ringOut := o } = ({ s with ringOut := o } : State).once d := by
  cases d with
  | nothing => rfl
  | newAddress a tw => rfl
  | deviceReset => exact blocksReset_out ..

/-- A bad or missing SYNC that leaves the part LOCKED (R148, R152). -/
theorem noSync_locked (hl : s.port.lock = .locked) (hm : s.port.misses ≤ 2) (o : Option OutFrame) :
    { noSync s with ringOut := o } = ({ s.handsEmpty with port.misses := s.port.misses + 1, ringOut := o } : State).once
      s.port.sender.deferred := by
  unfold noSync
  rw [hl]
  simp only
  rw [if_pos (by omega), missSync_finish, once_out]
  unfold State.handsEmpty State.collectingLost setLock
  rw [hl]

theorem relock_eq (s : State) : relock s =
    { s with port.lock := .locked, port.misses := 0, speed.counter := s.speed.timeout * 480,
             ramp.currents := { s.gain.targets with mute := Vector.replicate 24 (-768) },
             notices.pending.relock := s.notices.pending.relock || s.notices.enabled.relock } := by
  unfold relock notify
  cases h : s.notices.enabled.relock <;> simp [hasKind, addKind, setSpeed, rampRelock, setLock, h]

theorem goodSync_held (h : s.pins.reset = true) (g : RingFrame) (path : State → State) :
    goodSync g path s = { s with ringOut := some { frame := g, judged := .untouched } } := by
  unfold goodSync; rw [if_pos h]; rfl

theorem goodSync_unlocked (h : s.pins.reset = false) (hl : s.port.lock = .unlocked) (g : RingFrame)
    (path : State → State) : goodSync g path s =
      { s with port.lock := .acquiring, port.misses := 0, ringOut := some { frame := g, judged := .untouched } } := by
  unfold goodSync; rw [h, hl]; rfl

theorem goodSync_acquiring (h : s.pins.reset = false) (hl : s.port.lock = .acquiring) (g : RingFrame)
    (path : State → State) : goodSync g path s = path (relock s) := by
  unfold goodSync; rw [h, hl]; rfl

theorem goodSync_locked (h : s.pins.reset = false) (hl : s.port.lock = .locked) (g : RingFrame)
    (path : State → State) : goodSync g path s = path { s with port.misses := 0 } := by
  unfold goodSync setLock; rw [h, hl]
  simp only
  rw [← hl]
  rfl

/-- An ACQUIRING part takes its frame as the LOCKED part the relock leaves (R150). -/
theorem goodSync_relocked (h : s.pins.reset = false) (hl : s.port.lock = .acquiring) (g : RingFrame)
    (path : State → State) : goodSync g path s = goodSync g path (relock s) := by
  have e := relock_eq s
  have lock : (relock s).port.lock = .locked := by rw [e]
  have misses : (relock s).port.misses = 0 := by rw [e]
  have pin : (relock s).pins.reset = false := by rw [e]; exact h
  have same : ({ relock s with port.misses := 0 } : State) = relock s := by rw [← misses]
  rw [goodSync_acquiring h hl, goodSync_locked pin lock, same]

/-- A frame of the LOCKED part: LOCKED with no miss after it, or at its reset values. -/
theorem samplePath_locked {control : State → Turn} (hc : ∀ v, PortStep v (control v).state) (out slots)
    (duckPin : Bool) (order : FrameOrder) (hl : s.port.lock = .locked) (hm : s.port.misses = 0) :
    let t := samplePath control out slots duckPin order s
    t.port.misses = 0 ∧ (t.port.lock = .locked ∨
      t = State.blocksReset t.pins t.port.address t.port.twin t.ringOut t.pending) := by
  dsimp only [samplePath]
  have acts (x : FrameCtx) (hx : x.control = control) (routing : Bool) (u : State) :
      PortStep u (mapOut recheck (runActs x order routing u).state) :=
    (portStep_runActs (by rw [hx]; exact hc) order routing u).trans (portStep_mapOut recheck)
  unfold Turn.finish
  split
  · exact ⟨rfl, .inr rfl⟩
  · exact ⟨(acts _ rfl _ { s with pins.duck := duckPin, ringOut := some out }).misses.trans hm,
      .inl ((acts _ rfl _ { s with pins.duck := duckPin, ringOut := some out }).lock.trans hl)⟩

theorem intactFrame_locked (f : FrameFields) (d : Bool) (o : FrameOrder) (hl : s.port.lock = .locked)
    (hm : s.port.misses = 0) :
    let t := intactFrame f d o s
    t.port.misses = 0 ∧ (t.port.lock = .locked ∨
      t = State.blocksReset t.pins t.port.address t.port.twin t.ringOut t.pending) :=
  samplePath_locked (fun _ => portStep_takeControlWord _) _ _ _ _ hl hm

theorem damagedPath_locked (f : FrameFields) (check : BitVec 16) (d : Bool) (o : FrameOrder)
    (hl : s.port.lock = .locked) (hm : s.port.misses = 0) :
    let t := damagedPath f check d o s
    t.port.misses = 0 ∧ (t.port.lock = .locked ∨
      t = State.blocksReset t.pins t.port.address t.port.twin t.ringOut t.pending) :=
  samplePath_locked (fun _ => portStep_abandonMessage) _ _ _ _ hl hm

theorem exec_frame_eq (f : FrameFields) (d : Bool) (o : FrameOrder) (s : State) : exec (.frame f d o) s =
    .next (goodSync { sync := syncPattern, fields := f, check := checkValue f } (intactFrame f d o) s) := rfl

theorem exec_damagedFrame_eq (f : FrameFields) (check : BitVec 16) (d : Bool) (o : FrameOrder) (s : State) :
    exec (.damagedFrame f check d o) s = .next (goodSync { sync := syncPattern, fields := f, check := check }
      (if check = checkValue f then intactFrame f d o else damagedPath f check d o) s) := rfl

theorem exec_syncFound_eq (f : RingFrame) (s : State) : exec (.syncFound f) s =
    .next (if s.pins.reset then passUntouched f s else
      match s.port.lock with
      | .unlocked => passUntouched f (setLock .acquiring 0 s)
      | .acquiring => s
      | .locked => s) := by
  cases h : s.port.lock <;> simp only [exec, execSyncFound, h]

theorem exec_syncBad_eq (f : RingFrame) (s : State) : exec (.syncBad f) s =
    .next { (if s.pins.reset then s else noSync s) with ringOut := some { frame := f, judged := .untouched } } := rfl

theorem exec_syncMissing_eq (s : State) : exec .syncMissing s =
    .next { (if s.pins.reset then s else noSync s) with ringOut := none } := rfl

/-- A frame of the LOCKED part, whatever miss count it found. -/
theorem frame_locked (hpin : s.pins.reset = false) (hl : s.port.lock = .locked) (f : FrameFields) (check : BitVec 16)
    (d : Bool) (o : FrameOrder) (i : Instr) (hi : i = .frame f d o ∨ i = .damagedFrame f check d o) :
    ∃ t : State, exec i s = .next t ∧ exec i { s with port.misses := 0 } = .next t ∧ t.port.misses = 0 ∧
      (t.port.lock = .locked ∨ t = State.blocksReset t.pins t.port.address t.port.twin t.ringOut t.pending) := by
  have again (g : RingFrame) (path : State → State) :
      goodSync g path { s with port.misses := 0 } = path { s with port.misses := 0 } :=
    goodSync_locked (s := { s with port.misses := 0 }) hpin hl g path
  rcases hi with rfl | rfl
  · refine ⟨intactFrame f d o { s with port.misses := 0 }, ?_, ?_, intactFrame_locked f d o hl rfl⟩
    · rw [exec_frame_eq, goodSync_locked hpin hl]
    · rw [exec_frame_eq, again]
  · refine ⟨(if check = checkValue f then intactFrame f d o else damagedPath f check d o)
      { s with port.misses := 0 }, ?_, ?_, ?_⟩
    · rw [exec_damagedFrame_eq, goodSync_locked hpin hl]
    · rw [exec_damagedFrame_eq, again]
    · split
      · exact intactFrame_locked f d o hl rfl
      · exact damagedPath_locked f check d o hl rfl

/-- Settles O6: by the lock state. -/
theorem lockTransitions : Obligations.LockTransitions := by
  refine ⟨fun s hpin => ?_, fun s hpin => ⟨fun hl => ?_, fun hl => ?_, fun hl => ?_⟩⟩
  · dsimp only
    refine ⟨fun g => ⟨?_, ?_⟩, fun f d o => ?_, fun f check d o => ?_, ?_⟩
    · rw [exec_syncFound_eq, if_pos hpin]; rfl
    · rw [exec_syncBad_eq, if_pos hpin]
    · rw [exec_frame_eq, goodSync_held hpin]; rfl
    · rw [exec_damagedFrame_eq, goodSync_held hpin]; rfl
    · rw [exec_syncMissing_eq, if_pos hpin]
  · have still : noSync s = s := by unfold noSync; rw [hl]
    refine ⟨fun f => ?_, fun f d o => ?_, fun f check d o => ?_, fun f => ?_, ?_⟩
    · rw [exec_syncFound_eq, hpin, hl]; rfl
    · rw [exec_frame_eq, goodSync_unlocked hpin hl]; rfl
    · rw [exec_damagedFrame_eq, goodSync_unlocked hpin hl]; rfl
    · rw [exec_syncBad_eq, hpin, still]; rfl
    · rw [exec_syncMissing_eq, hpin, still]; rfl
  · have gives : noSync s = setLock .unlocked 0 s := by unfold noSync; rw [hl]
    refine ⟨fun f => ?_, fun f => ?_, ?_, fun f d o => ?_, fun f check d o => ?_⟩
    · rw [exec_syncFound_eq, hpin, hl]; rfl
    · rw [exec_syncBad_eq, hpin, gives]; rfl
    · rw [exec_syncMissing_eq, hpin, gives]; rfl
    · rw [exec_frame_eq, exec_frame_eq, goodSync_relocked hpin hl, relock_eq]
    · rw [exec_damagedFrame_eq, exec_damagedFrame_eq, goodSync_relocked hpin hl, relock_eq]
  · refine ⟨fun f => ?_, frame_locked hpin hl, fun hm => ⟨fun f => ?_, ?_⟩⟩
    · rw [exec_syncFound_eq, hpin, hl]; rfl
    · rw [exec_syncBad_eq, hpin]; exact congrArg _ (noSync_locked hl hm _)
    · rw [exec_syncMissing_eq, hpin]; exact congrArg _ (noSync_locked hl hm _)

end Sys2Proof.Machine
end

section
/-! What a ring command and a control word do at the Ring Port (R153 to R159). -/

namespace Sys2Proof.Machine

variable {s t u : State} {r : Route} {c : Command}

/-! ### Refusals and addresses -/

/-- Settles O16: a refusal has only one shape. -/
theorem refusedChangesNothing : Obligations.RefusedChangesNothing := by
  intro c z s ok clamped
  have shape := takeCommand_shape z s c
  generalize takeCommand z s c = x at shape ok clamped ⊢
  cases shape with
  | done code t taken => exact absurd taken (by rintro (h | h); exacts [ok h, clamped h])
  | refused code => exact ⟨rfl, rfl, rfl⟩
  | data ws t => exact absurd rfl ok
  | deferred code d taken => exact absurd taken (by rintro (h | h); exacts [ok h, clamped h])

/-- Settles O10: the part in twin mode answers to the pair its address lies in. -/
theorem addressing : Obligations.Addressing := by
  intro p a zb
  have high : a ≠ 31 ↔ a.toNat ≠ 31 := by
    constructor
    · exact fun h e => h (BitVec.eq_of_toNat_eq e)
    · exact fun h e => h (by rw [e]; rfl)
  have small := p.address.isLt
  refine ⟨fun single => ?_, fun twin => ?_, by simp [answersTo, broadcast], fun twin ha => ?_, fun h => ?_⟩
  · simp only [answersTo, broadcast, single, Bool.and_eq_true, bne_iff_ne, high]
    simp only [Bool.false_eq_true, if_false, beq_iff_eq]
    omega
  · simp only [answersTo, broadcast, twin, Bool.and_eq_true, bne_iff_ne, high, if_true, beq_iff_eq]
    omega
  · have hb : a ≠ 31#5 := ha
    simp [routeZone, broadcast, twin, hb]
  · obtain h | h := h <;> simp [routeZone, broadcast, h]

/-! ### The row of a command -/

theorem rollCallHeader_of_unheard (h : listening s = false ∨ r.address ≠ broadcast) : rollCallHeader r s = s := by
  unfold rollCallHeader
  obtain h | h := h <;> simp [h]

/-- The row of every command is that command delivered, but for the mark of a broadcast ROLL_CALL. -/
theorem exec_rowOf (h : c ≠ .rollCall ∨ listening s = false ∨ r.address ≠ broadcast) :
    exec (rowOf r c) s = .next (deliver r c s) := by
  cases c with
  | rollCall =>
    have unmarked := rollCallHeader_of_unheard (h.resolve_left (absurd rfl))
    show Host.Outcome.next (deliver r .rollCall (rollCallHeader r s)) = _
    rw [unmarked]
  | _ => rfl

/-- Settles O15: each clause is a case of the judging of a message (R156). -/
theorem commandsNotTaken : Obligations.CommandsNotTaken := by
  refine fun c r s => ⟨fun pin lock address busy => ?_, fun unheard => ?_, fun hb data => ?_⟩
  · rw [exec_rowOf (.inr (.inr (not_broadcast_of_answersTo address))),
      deliver_answering (listening_iff.mpr ⟨pin, lock⟩) address busy, notify_ctrlLost]
  · have unheard : listening s = false ∨ (r.address ≠ broadcast ∧ answersTo s.port r.address = false) := by
      obtain h | h | h := unheard
      · exact .inl (listening_eq_false (.inl h))
      · exact .inl (listening_eq_false (.inr h))
      · exact .inr h
    rw [exec_rowOf (.inr (unheard.imp_right And.left)), deliver_unheard unheard]
  · have named : c ≠ .rollCall ∧ isDataCode (commandCode c).1 (commandCode c).2 = true := by
      obtain rfl | rfl | ⟨sel, part, rfl⟩ := data <;> exact ⟨by simp, rfl⟩
    rw [exec_rowOf (.inl named.1), deliver_broadcast_data hb named.2]

/-! ### CLEAR, and what an answer defers -/

theorem takeClear_eq (s : State) : takeClear s =
    applyDeferred s.port.sender.deferred { s with port.assembler := .idle, port.sender := .quiet } := by
  unfold takeClear
  rw [leaveAnswering_eq]
  rfl

theorem takeClear_finish (s : State) : (takeClear s).finish =
    ({ s with port.assembler := .idle, port.sender := .quiet } : State).once s.port.sender.deferred := by
  rw [takeClear_eq, applyDeferred_finish rfl]

/-- The type of a control word stands in its top two bits (R169). -/
theorem controlType_append (k : BitVec 2) (low : BitVec 30) : controlType (k ++ low : BitVec 32) =
    controlType (k ++ (0 : BitVec 30) : BitVec 32) := by
  have top (i : Nat) (h : 30 ≤ i) :
      (k ++ low : BitVec 32).getLsbD i = (k ++ (0 : BitVec 30) : BitVec 32).getLsbD i := by
    rw [BitVec.getLsbD_append, BitVec.getLsbD_append, if_neg (by omega), if_neg (by omega)]
  unfold controlType flagAt
  rw [top 31 (by omega), top 30 (by omega)]

theorem exec_clear (pin : s.pins.reset = false) (lock : s.port.lock = .locked) : exec .clear s =
    .next (({ s with port.assembler := .idle, port.sender := .quiet } : State).once s.port.sender.deferred) := by
  have h : listening s = true := listening_iff.mpr ⟨pin, lock⟩
  show Host.Outcome.next (if listening s then (takeClear s).finish else s) = _
  rw [if_pos h, takeClear_finish]

/-- Settles O8: a CLEAR word drops the message and the answer in hand, and what the answer deferred follows. -/
theorem clearWord : Obligations.ClearWord := by
  refine fun s => ⟨fun pin lock => ⟨fun quiet => ?_, fun w rest ans => ?_, fun w rest n tw ans => ?_,
    fun w rest ans => ?_⟩, fun low => ?_, fun unheard => ?_⟩
  · rw [exec_clear pin lock, quiet]
    simp only [Sender.deferred, State.once]
    rw [← quiet]
  · rw [exec_clear pin lock, ans]; rfl
  · rw [exec_clear pin lock, ans]; rfl
  · rw [exec_clear pin lock, ans]; rfl
  · have taken : takeControlWord ((3 : BitVec 2) ++ low) s = takeClear s := by
      unfold takeControlWord; rw [controlType_append]; rfl
    dsimp only
    rw [taken, takeClear_eq]
    cases s.port.sender.deferred <;> simp [applyDeferred, State.once]
  · show Host.Outcome.next (if listening s then (takeClear s).finish else s) = _
    rw [listening_eq_false unheard, if_neg (by simp)]

/-- Settles O9: by the deferred effect, where the answer leaves (R154, R159). -/
theorem portCommands : Obligations.PortCommands := by
  refine ⟨fun s a tw => ⟨strapAddress a, strapAddress_val a, fun r h => ?_, fun r h => ?_⟩, fun s r h => ?_,
    fun s r h => ⟨fun kept => ?_, fun n tw cut => ?_⟩, fun s w rest n tw ans => ?_, fun s w rest ans => ?_,
    fun s quiet => ?_⟩
  · show Host.Outcome.next (deliver r (.assignAddress a tw) s) = _
    rw [deliver_ready h]
    simp [takeCommand, takeAssignAddress, clampedIf, commandCode]
  · show Host.Outcome.next (deliver r (.assignAddress a tw) s) = _
    rw [deliver_broadcast h rfl]; rfl
  · show Host.Outcome.next (deliver r .deviceReset s) = _
    rw [deliver_ready h]; rfl
  · rw [exec_deviceReset_broadcast h]
    unfold deviceReset keptAddress
    cases e : s.port.sender with
    | quiet => rfl
    | answering w rest d =>
      cases d with
      | nothing => rfl
      | newAddress n tw => exact absurd (by rw [e]; rfl) (kept n tw)
      | deviceReset => rfl
  · rw [exec_deviceReset_broadcast h]
    unfold deviceReset keptAddress
    cases e : s.port.sender with
    | quiet => rw [e] at cut; cases cut
    | answering w rest d => rw [e] at cut; cases cut; rfl
  · have fin := leaveAnswering_finish s
    rw [ans] at fin
    constructor
    · change execNewAddressTakesEffect s = _
      simp only [execNewAddressTakesEffect, ans, fin]
      rfl
    · change execDeviceResetTakesEffect s = _
      simp only [execDeviceResetTakesEffect, ans]
  · refine ⟨?_, ?_, fun pin lock misses f => ?_⟩
    · rw [exec_deviceResetTakesEffect_of_answering ans]; rfl
    · change execNewAddressTakesEffect s = _
      simp only [execNewAddressTakesEffect, ans]
    · rw [exec_syncBad_eq, pin, if_neg (by simp), noSync_locked lock misses, ans]
      rfl
  · constructor
    · change execNewAddressTakesEffect s = _
      simp only [execNewAddressTakesEffect, quiet]
    · change execDeviceResetTakesEffect s = _
      simp only [execDeviceResetTakesEffect, quiet]

/-! ### Control words -/

theorem payloadWord_reads (w : Payload) : controlType (payloadWord w) = .payload ∧ readPayload (payloadWord w) = w := by
  unfold payloadWord controlType flagAt readPayload
  grind

/-- A HEADER word carries its fields where 12.2 has them, whatever its low four bits. -/
theorem header_reads (r : Route) (space : BitVec 4) (code count : BitVec 8) (ignored : BitVec 4) :
    let w : Word32 := (1 : BitVec 2) ++ r.address ++ bit r.zoneBit ++ space ++ code ++ count ++ ignored
    controlType w = .header ∧ readHeader w = { route := r, space := space, command := code, count := count } := by
  obtain ⟨a, b⟩ := r
  simp only [controlType, readHeader, flagAt, Header.mk.injEq, Route.mk.injEq]
  refine ⟨by grind, ⟨by grind, by grind [bit]⟩, by grind, by grind, by grind⟩

theorem takePayload_word (w : Payload) (s : State) : takeControlWord (payloadWord w) s = takePayload w s := by
  obtain ⟨type, reads⟩ := payloadWord_reads w
  unfold takeControlWord
  rw [type, reads]

theorem takeHeader_word (r : Route) (space : BitVec 4) (code count : BitVec 8) (ignored : BitVec 4) (s : State) :
    takeControlWord ((1 : BitVec 2) ++ r.address ++ bit r.zoneBit ++ space ++ code ++ count ++ ignored) s =
      startMessage { route := r, space := space, command := code, count := count } (abandonMessage s) := by
  obtain ⟨type, reads⟩ := header_reads r space code count ignored
  unfold takeControlWord
  rw [type, reads]

theorem callsRoll_iff (h : Header) : callsRoll h ↔
    ((h.route.address == broadcast) && isRollCall h.space h.command) = true := by
  simp [callsRoll, broadcast, isRollCall]

/-- What a message for the part starts as: one that counts no payload words completes at once (R155). -/
def begun (h : Header) (s : State) : Turn :=
  if h.count = 0 then completeMessage h [] s
  else { state := { s with port.assembler := .collecting h h.count.toNat [] }, reset := false }

theorem count_zero (n : BitVec 8) : n.toNat = 0 ↔ n = 0 :=
  ⟨fun h => BitVec.eq_of_toNat_eq h, fun h => by rw [h]; rfl⟩

theorem startMessage_heard (h : Header) (heard : h.route.address = 31 ∨ answersTo s.port h.route.address = true)
    (plain : ¬ callsRoll h) : startMessage h s = begun h s := by
  rw [callsRoll_iff] at plain
  unfold startMessage begun
  simp only
  rw [if_neg plain, if_pos (by simpa [broadcast] using heard)]
  simp only [count_zero]
  rfl

theorem startMessage_roll (h : Header) (roll : callsRoll h) : startMessage h s = begun h (markRoll s) := by
  have hb : (h.route.address == broadcast) = true := by simpa [broadcast] using roll.1
  rw [callsRoll_iff] at roll
  unfold startMessage begun
  simp only
  rw [if_pos roll, if_pos (by simp [hb])]
  simp only [count_zero]
  rfl

theorem begun_idle (h : Header) (s : State) : begun h (setAssembler .idle s) = begun h s := by
  unfold begun; split <;> rfl

theorem startMessage_unheard (h : Header) (other : h.route.address ≠ 31)
    (unheard : answersTo s.port h.route.address = false) : startMessage h s =
      { state := { s with port.assembler := if h.count = 0 then .idle else .skipping h.count.toNat }, reset := false } := by
  have hb : (h.route.address == broadcast) = false := by simpa [broadcast] using other
  unfold startMessage
  simp only [hb, unheard, Bool.false_and, Bool.or_false, Bool.false_eq_true, if_false, count_zero]
  split <;> rfl

theorem markRoll_none (h : rollBit s.notices = none) : markRoll s = s := by
  unfold markRoll; rw [h]

/-- Frame `o` leaves with bit `b` of ROLL set (R166). -/
def marked (b : Fin 8) (o : OutFrame) (s : State) : State :=
  { s with ringOut := some { o with frame.fields.roll := o.frame.fields.roll ||| (1#8 <<< b.val) } }

theorem markRoll_some {b : Fin 8} {o : OutFrame} (h : rollBit s.notices = some b) (out : s.ringOut = some o)
    (intact : o.judged = .intact) : markRoll s = marked b o s := by
  unfold markRoll mapOut
  rw [h, out]
  simp only [Option.map_some, intact, onFields, setBit, marked]

/-- Settles O11: the table of R155, a word at a time. -/
theorem controlWordTable : Obligations.ControlWordTable := by
  refine fun s g n ws => ⟨fun low => ?_, fun w => ⟨fun idle => ?_, fun hn h => ?_, fun h => ?_, fun hn h => ?_, fun h => ?_⟩,
    fun r space code count ignored => ?_⟩
  · unfold takeControlWord; rw [controlType_append]; rfl
  · rw [takePayload_word]; unfold takePayload; rw [idle]
  · rw [takePayload_word]; unfold takePayload; rw [h]; simp only; rw [if_neg (by omega)]; rfl
  · rw [takePayload_word]; unfold takePayload; rw [h]; simp only; rw [if_pos (by omega)]
  · rw [takePayload_word]; unfold takePayload; rw [h]; simp only; rw [if_neg (by omega)]; rfl
  · rw [takePayload_word]; unfold takePayload; rw [h]; simp only; rw [if_pos (by omega)]; rfl
  · have dropped : abandonMessage s = setAssembler .idle s.collectingLost := abandonMessage_eq s
    dsimp only
    rw [takeHeader_word, dropped]
    refine ⟨fun heard plain => ?_, fun other unheard => ?_, fun o roll out intact => ⟨fun off => ?_, fun b wp => ?_,
      fun b wc => ?_⟩⟩
    · rw [startMessage_heard (s := setAssembler .idle s.collectingLost) _ heard plain, begun_idle]; rfl
    · exact startMessage_unheard (s := setAssembler .idle s.collectingLost) ⟨r, space, code, count⟩ other unheard
    · rw [startMessage_roll _ roll, markRoll_none (s := setAssembler .idle s.collectingLost) (by simp [rollBit, State.collectingLost, off]), begun_idle]; rfl
    · have kept : s.collectingLost.notices.roll = .whenPending b := wp
      rw [startMessage_roll _ roll]
      by_cases pending : anyKind s.collectingLost.notices.pending = true
      · rw [markRoll_some (s := setAssembler .idle s.collectingLost) (b := b) (by simp [rollBit, kept, pending]) out
          intact, if_pos pending]
        exact begun_idle _ (marked b o s.collectingLost)
      · rw [markRoll_none (s := setAssembler .idle s.collectingLost) (by simp [rollBit, kept, pending]), if_neg pending]
        exact begun_idle _ s.collectingLost
    · have kept : s.collectingLost.notices.roll = .whenClear b := wc
      rw [startMessage_roll _ roll]
      by_cases pending : anyKind s.collectingLost.notices.pending = true
      · rw [markRoll_none (s := setAssembler .idle s.collectingLost) (by simp [rollBit, kept, pending]), if_pos pending]
        exact begun_idle _ s.collectingLost
      · rw [markRoll_some (s := setAssembler .idle s.collectingLost) (b := b) (by simp [rollBit, kept, pending]) out
          intact, if_neg pending]
        exact begun_idle _ (marked b o s.collectingLost)

end Sys2Proof.Machine
end

section
/-! The words of messages: what is written reads back, and what a message reads as (12.2 to 12.4). -/

namespace Sys2Proof.Machine

/-! ### Words of one record -/

theorem curveEntries_curveWords : ∀ (n : Nat) (l : List (BitVec 12)), l.length = 2 * n →
    curveEntries (curveWords l) = l ∧ (curveWords l).length = n
  | 0, [], _ => ⟨rfl, rfl⟩
  | n + 1, a :: b :: rest, h => by
    obtain ⟨same, length⟩ := curveEntries_curveWords n rest (by simp at h; omega)
    have first : (curveWord a b).extractLsb' 18 12 = a := by unfold curveWord; grind
    have second : (curveWord a b).extractLsb' 6 12 = b := by unfold curveWord; grind
    refine ⟨?_, by simp [curveWords, length]⟩
    simp only [curveEntries] at same
    simp only [curveWords, curveEntries, List.flatMap_cons, first, second, same, List.cons_append, List.nil_append]
  | 0, _ :: _, h => by simp at h
  | n + 1, [], h => by simp at h
  | n + 1, [a], h => by simp at h; omega

theorem curveVector_curveWords {n : Nat} (v : Vector (BitVec 12) (2 * n)) :
    curveVector (2 * n) (curveWords v.toList) = v := by
  obtain ⟨same, -⟩ := curveEntries_curveWords n v.toList (by simp)
  ext i hi
  simp [curveVector, same]

theorem readBreakpoint_payload (p : BreakpointWord) : readBreakpoint (breakpointPayload p) = p := by
  obtain ⟨a, b, c, d⟩ := p
  simp only [readBreakpoint, breakpointPayload, flagAt, BreakpointWord.mk.injEq]
  refine ⟨by grind, by grind, by grind [bit], by grind⟩

theorem readTap_payload (t : TapWord) : readTap (tapPayload t) = t := by
  obtain ⟨a, b, c⟩ := t
  simp only [readTap, tapPayload, flagAt, TapWord.mk.injEq]
  refine ⟨by grind, by grind, by grind [bit]⟩

theorem readChannelWords_payload (w : ChannelWord) (n : BitVec 3) :
    readChannelWords (w.channel ++ bit w.slotPresent ++ w.slot ++ bit w.zone ++ n ++ w.x ++ w.y ++ (0 : BitVec 2))
      (w.trim ++ w.weight ++ (0 : BitVec 15)) = w := by
  obtain ⟨a, b, c, d, e, f, g, h⟩ := w
  simp only [readChannelWords, flagAt, ChannelWord.mk.injEq]
  refine ⟨by grind, by grind [bit], by grind, by grind [bit], by grind, by grind, by grind, by grind⟩

theorem readKinds_payload (k : NoticeSet) : readKinds (bit k.relock ++ bit k.speedLost ++ bit k.ctrlLost ++ bit k.clip ++
    bit k.pageSettled ++ bit k.duckLine ++ (0 : BitVec 24)) = k := by
  obtain ⟨a, b, c, d, e, f⟩ := k
  simp only [readKinds, flagAt, NoticeSet.mk.injEq]
  refine ⟨by grind [bit], by grind [bit], by grind [bit], by grind [bit], by grind [bit], by grind [bit]⟩

theorem byteWord_reads (v : BitVec 8) : (byteWord v).extractLsb' 22 8 = v := by unfold byteWord; grind

theorem coeffWord_reads (v : Coeff) : (coeffWord v).extractLsb' 6 24 = v := by unfold coeffWord; grind

theorem curveWords_length {n : Nat} (v : Vector (BitVec 12) (2 * n)) : (curveWords v.toList).length = n :=
  (curveEntries_curveWords n v.toList (by simp)).2

theorem readMessage_payloadWords (c : Command) (h : sendable c = true) :
    readMessage (commandCode c).1 (commandCode c).2 (payloadWords c) = .command c := by
  cases c with
  | assignAddress a tw => change Reading.command (.assignAddress _ _) = _; congr 2 <;> grind
  | deviceReset => rfl
  | readTable a b => change Reading.command (.readTable _ _) = _; congr 2 <;> grind
  | setBalance v => change Reading.command (.setBalance _) = _; rw [byteWord_reads]
  | setFade v => change Reading.command (.setFade _) = _; rw [byteWord_reads]
  | loadBalanceCurve v =>
    have length : (payloadWords (.loadBalanceCurve v)).length = 16 := curveWords_length (n := 16) v
    change (if _ then Reading.command (.loadBalanceCurve (curveVector (2 * 16) (curveWords v.toList))) else _) = _
    rw [if_pos length, curveVector_curveWords]
  | loadFadeCurve v =>
    have length : (payloadWords (.loadFadeCurve v)).length = 16 := curveWords_length (n := 16) v
    change (if _ then Reading.command (.loadFadeCurve (curveVector (2 * 16) (curveWords v.toList))) else _) = _
    rw [if_pos length, curveVector_curveWords]
  | setChannelTrim i v => change Reading.command (.setChannelTrim _ _) = _; congr 2 <;> grind
  | setChannelMute i v => change Reading.command (.setChannelMute _ _) = _; congr 2 <;> grind
  | setVolume v => change Reading.command (.setVolume _) = _; rw [byteWord_reads]
  | stepVolume v => change Reading.command (.stepVolume _) = _; rw [byteWord_reads]
  | loadVolumeCurve v =>
    have length : (payloadWords (.loadVolumeCurve v)).length = 32 := curveWords_length (n := 32) v
    change (if _ then Reading.command (.loadVolumeCurve (curveVector (2 * 32) (curveWords v.toList))) else _) = _
    rw [if_pos length, curveVector_curveWords]
  | setZoneMute v => change Reading.command (.setZoneMute _) = _; rw [byteWord_reads]
  | setDuck v => change Reading.command (.setDuck _) = _; rw [byteWord_reads]
  | setZoneOptions o => change Reading.command (.setZoneOptions ⟨_, _, _, _, _⟩) = _; congr 3 <;> grind
  | setRamp l p a b => change Reading.command (.setRamp _ _ _ _) = _; congr 2 <;> grind
  | vehicleState v b => change Reading.command (.vehicleState _ (BitVec.getLsbD _ _)) = _; congr 2 <;> grind [bit]
  | setSpeedPolicy p => change Reading.command (.setSpeedPolicy ⟨_, _, _, _⟩) = _; congr 3 <;> grind
  | loadSdvCurve points =>
    have short : points.length ≤ 254 := by simpa [sendable] using h
    change (if _ = BitVec.toNat _ then Reading.command (.loadSdvCurve ((points.map breakpointPayload).map readBreakpoint))
      else _) = _
    rw [if_pos, List.map_map, funext (f := readBreakpoint ∘ breakpointPayload) (g := id) readBreakpoint_payload,
      List.map_id]
    rw [byteWord_reads, List.length_map, BitVec.toNat_ofNat, Nat.mod_eq_of_lt (by omega)]
  | loadSource i p k =>
    change Reading.command (.loadSource _ (BitVec.getLsbD _ _) _) = _; congr 2 <;> grind [bit]
  | loadChannel w taps =>
    have short : taps.length ≤ 7 := by simpa [sendable] using h
    have count : (w.channel ++ bit w.slotPresent ++ w.slot ++ bit w.zone ++ BitVec.ofNat 3 taps.length ++ w.x ++ w.y
      ++ (0 : BitVec 2) : Payload).extractLsb' 12 3 = BitVec.ofNat 3 taps.length := by grind
    change (if _ = BitVec.toNat _ then Reading.command (.loadChannel (readChannelWords _ _)
      ((taps.map tapPayload).map readTap)) else _) = _
    rw [if_pos, List.map_map, funext (f := readTap ∘ tapPayload) (g := id) readTap_payload, List.map_id,
      readChannelWords_payload]
    rw [count, List.length_map, BitVec.toNat_ofNat, Nat.mod_eq_of_lt (by omega)]
  | loadSection i k =>
    change Reading.command (.loadSection _ ⟨_, _, _, _, _⟩) = _
    rw [byteWord_reads, coeffWord_reads, coeffWord_reads, coeffWord_reads, coeffWord_reads, coeffWord_reads]
  | loadProgram p i entries =>
    have short : entries.length ≤ 15 := by simpa [sendable] using h
    have count : (p ++ i ++ BitVec.ofNat 4 entries.length ++ (0 : BitVec 14) : Payload).extractLsb' 14 4 =
      BitVec.ofNat 4 entries.length := by grind
    have page : (p ++ i ++ BitVec.ofNat 4 entries.length ++ (0 : BitVec 14) : Payload).extractLsb' 26 4 = p := by grind
    have channel : (p ++ i ++ BitVec.ofNat 4 entries.length ++ (0 : BitVec 14) : Payload).extractLsb' 18 8 = i := by grind
    change (if _ = BitVec.toNat _ then Reading.command (.loadProgram _ _
      ((entries.map byteWord).map fun e => e.extractLsb' 22 8)) else _) = _
    rw [if_pos, List.map_map, funext (f := (fun e : Payload => e.extractLsb' 22 8) ∘ byteWord) (g := id) byteWord_reads,
      List.map_id, page, channel]
    rw [count, List.length_map, BitVec.toNat_ofNat, Nat.mod_eq_of_lt (by omega)]
  | selectPage p => change Reading.command (.selectPage _) = _; congr 2; grind
  | setNoticeEnable k => change Reading.command (.setNoticeEnable (readKinds _)) = _; rw [readKinds_payload]
  | statusPoll => rfl
  | rollCall => rfl
  | rollCallAssign m b => change Reading.command (.rollCallAssign _ _) = _; congr 2 <;> grind
  | readMeters => rfl

theorem payloadWords_length (c : Command) (h : sendable c = true) : (payloadWords c).length ≤ 255 := by
  cases c with
  | loadBalanceCurve v => have := curveWords_length (n := 16) v; simp only [payloadWords]; omega
  | loadFadeCurve v => have := curveWords_length (n := 16) v; simp only [payloadWords]; omega
  | loadVolumeCurve v => have := curveWords_length (n := 32) v; simp only [payloadWords]; omega
  | loadSdvCurve points => simp [sendable] at h; simp [payloadWords]; omega
  | loadChannel w taps => simp [sendable] at h; simp [payloadWords]; omega
  | loadProgram p i entries => simp [sendable] at h; simp [payloadWords]; omega
  | _ => simp [payloadWords]

theorem resultWord_eq (code : ResultCode) (space : BitVec 4) (command : BitVec 8) (count : Nat) :
    resultWord code space command count =
      BitVec.ofNat 4 code.number ++ space ++ command ++ BitVec.ofNat 8 count ++ (0 : BitVec 8) := by
  apply BitVec.eq_of_toNat_eq
  unfold resultWord
  rw [packWord_toNat _ (by simp [fieldsWidth])]
  simp only [append_toNat, fieldsValue, fieldsWidth, List.map_cons, List.map_nil, List.sum_cons, List.sum_nil, nat_width,
    nat_bits]
  have rest : (0 : BitVec 8).toNat = 0 := rfl
  norm_num [rest]
  omega

/-- Settles O12: command by command, the words are the concatenation of the fields. -/
theorem messageRoundTrip : Obligations.MessageRoundTrip := by
  refine ⟨fun c h => ⟨readMessage_payloadWords c h, payloadWords_length c h⟩, fun r c _ => ?_, payloadWord_reads,
    fun w => rfl, fun code space command count small => ?_⟩
  · exact header_reads r (commandCode c).1 (commandCode c).2 (BitVec.ofNat 8 (payloadWords c).length) 0
  · dsimp only
    rw [resultWord_eq]
    have number : (BitVec.ofNat 4 code.number ++ space ++ command ++ BitVec.ofNat 8 count ++ (0 : BitVec 8)
      : Word32).extractLsb' 28 4 = BitVec.ofNat 4 code.number := by grind
    have length : (BitVec.ofNat 4 code.number ++ space ++ command ++ BitVec.ofNat 8 count ++ (0 : BitVec 8)
      : Word32).extractLsb' 8 8 = BitVec.ofNat 8 count := by grind
    refine ⟨?_, by grind, by grind, ?_, by grind⟩
    · rw [number]; cases code <;> rfl
    · rw [length, BitVec.toNat_ofNat, Nat.mod_eq_of_lt (by omega)]

end Sys2Proof.Machine
end

section
/-! What a message reads as, exactly (R156, R170, R171). -/

namespace Sys2Proof.Machine

/-- The bits of a payload word that a layout assigns, from its top down; the others 0 (R170). -/
def assigned (n : Nat) (w : Payload) : Payload := (w >>> (30 - n)) <<< (30 - n)

/-- The command index (12.3): the spaces and codes of the commands. -/
def commandIndex : List (BitVec 4 × BitVec 8) :=
  [(1, 1), (1, 2), (1, 3), (2, 1), (2, 2), (2, 3), (2, 4), (2, 5), (2, 6), (3, 1), (3, 2), (3, 3), (3, 4), (3, 5), (3, 6),
    (4, 1), (5, 1), (5, 2), (5, 3), (6, 1), (6, 2), (7, 1), (7, 2), (7, 3), (8, 1), (8, 2), (8, 3), (8, 4), (8, 5)]

theorem commandCode_mem (c : Command) : commandCode c ∈ commandIndex := by
  cases c <;> exact List.contains_iff_mem.mp rfl

/-- How a message of a space and code with these payload words can read. -/
inductive Reads (space : BitVec 4) (code : BitVec 8) (ws : List Payload) : Reading → Prop
  /-- the command index has no such space and code -/
  | unknown (h : (space, code) ∉ commandIndex) : Reads space code ws .unknown
  /-- the count is not the one the command requires -/
  | badLength (c : Command) (index : commandCode c = (space, code))
      (count : requiredWords space.toNat code.toNat ws.head? ≠ some ws.length) : Reads space code ws .badLength
  /-- a command, whose words are those of the message on their assigned bits -/
  | command (c : Command) (index : commandCode c = (space, code))
      (count : requiredWords space.toNat code.toNat ws.head? = some ws.length) (sendable : ws.length ≤ 255 → sendable c = true)
      (words : payloadWords c = ws.mapIdx fun i w => assigned (assignedBits space.toNat code.toNat i) w) :
      Reads space code ws (.command c)

/-! ### Payloads of another length -/

theorem length_ne_zero {ws : List Payload} (h : ws = [] → False) : ws.length ≠ 0 := by
  intro e; exact h (List.length_eq_zero_iff.mp e)

theorem length_ne_one {ws : List Payload} (h : ∀ w, ws = [w] → False) : ws.length ≠ 1 := by
  intro e
  obtain ⟨w, e⟩ := List.length_eq_one_iff.mp e
  exact h w e

theorem length_ne_two {ws : List Payload} (h : ∀ w v, ws = [w, v] → False) : ws.length ≠ 2 := by
  intro e
  obtain ⟨w, v, e⟩ := List.length_eq_two.mp e
  exact h w v e

theorem length_ne_six {ws : List Payload} (h : ∀ i b0 b1 b2 a1 a2, ws = [i, b0, b1, b2, a1, a2] → False) :
    ws.length ≠ 6 := by
  intro e
  match ws, e with
  | [i, b0, b1, b2, a1, a2], _ => exact h i b0 b1 b2 a1 a2 rfl

/-! ### The words of a command on the assigned bits -/

theorem byteWord_assigned (w : Payload) : byteWord (w.extractLsb' 22 8) = assigned 8 w := by
  unfold byteWord assigned; ext i hi; grind

theorem coeffWord_assigned (w : Payload) : coeffWord (w.extractLsb' 6 24) = assigned 24 w := by
  unfold coeffWord assigned; ext i hi; grind

theorem curveWord_assigned (w : Payload) : curveWord (w.extractLsb' 18 12) (w.extractLsb' 6 12) = assigned 24 w := by
  unfold curveWord assigned; ext i hi; grind

theorem breakpointPayload_assigned (w : Payload) : breakpointPayload (readBreakpoint w) = assigned 23 w := by
  unfold breakpointPayload readBreakpoint flagAt bit assigned; ext i hi; grind

theorem tapPayload_assigned (w : Payload) : tapPayload (readTap w) = assigned 21 w := by
  unfold tapPayload readTap flagAt bit assigned; ext i hi; grind

theorem curveWords_curveEntries (ws : List Payload) : curveWords (curveEntries ws) = ws.map (assigned 24) := by
  induction ws with
  | nil => rfl
  | cons w ws ih =>
    rw [List.map_cons, ← ih, ← curveWord_assigned]
    rfl

theorem curveEntries_length (ws : List Payload) : (curveEntries ws).length = 2 * ws.length := by
  simp [curveEntries]; omega

theorem curveVector_toList {n : Nat} {ws : List Payload} (h : 2 * ws.length = n) :
    (curveVector n ws).toList = curveEntries ws := by
  have length := curveEntries_length ws
  apply List.ext_getElem
  · simp; omega
  · intro i hi hj
    simp [curveVector, hj]

theorem curveWords_curveVector {n : Nat} {ws : List Payload} (h : 2 * ws.length = n) :
    curveWords (curveVector n ws).toList = ws.mapIdx fun _ w => assigned 24 w := by
  rw [curveVector_toList h, curveWords_curveEntries]
  exact List.ext_getElem (by simp) (by simp)

/-- A list of words of one layout (12.4), each on its assigned bits. -/
theorem map_eq_mapIdx {f : Payload → Payload} {n : Nat} {g : Nat → Nat} (hf : ∀ w, f w = assigned n w)
    (hg : ∀ i, g i = n) (ws : List Payload) : ws.map f = ws.mapIdx fun i w => assigned (g i) w :=
  List.ext_getElem (by simp) (by simp [hf, hg])

/-! ### Reading, a space at a time -/

theorem reads_port (code : BitVec 8) (ws : List Payload) : Reads 1 code ws (readPort code.toNat ws) := by
  unfold readPort
  split
  · rename_i h
    obtain rfl : code = 1 := BitVec.eq_of_toNat_eq h
    split
    · exact .command _ rfl rfl (fun _ => rfl) (congrArg (fun x => [x]) (by change _ = assigned 13 _; unfold assigned; ext i hi; grind))
    · rename_i h; exact .badLength (.assignAddress 0 0) rfl (fun e => length_ne_one h (Option.some.inj e).symm)
  · rename_i h
    obtain rfl : code = 2 := BitVec.eq_of_toNat_eq h
    split
    · exact .command _ rfl rfl (fun _ => rfl) rfl
    · rename_i h; exact .badLength (.deviceReset) rfl (fun e => length_ne_zero h (Option.some.inj e).symm)
  · rename_i h
    obtain rfl : code = 3 := BitVec.eq_of_toNat_eq h
    split
    · exact .command _ rfl rfl (fun _ => rfl) (congrArg (fun x => [x]) (by change _ = assigned 16 _; unfold assigned; ext i hi; grind))
    · rename_i h; exact .badLength (.readTable 0 0) rfl (fun e => length_ne_one h (Option.some.inj e).symm)
  · rename_i h1 h2 h3
    refine .unknown ?_
    simp [commandIndex, ← BitVec.toNat_inj]
    exact ⟨h1, h2, h3⟩

theorem reads_cabinGain (code : BitVec 8) (ws : List Payload) : Reads 2 code ws (readCabinGain code.toNat ws) := by
  unfold readCabinGain
  split
  · rename_i h
    obtain rfl : code = 1 := BitVec.eq_of_toNat_eq h
    split
    · exact .command _ rfl rfl (fun _ => rfl) (congrArg (fun x => [x]) (byteWord_assigned _))
    · rename_i h; exact .badLength (.setBalance 0) rfl (fun e => length_ne_one h (Option.some.inj e).symm)
  · rename_i h
    obtain rfl : code = 2 := BitVec.eq_of_toNat_eq h
    split
    · exact .command _ rfl rfl (fun _ => rfl) (congrArg (fun x => [x]) (byteWord_assigned _))
    · rename_i h; exact .badLength (.setFade 0) rfl (fun e => length_ne_one h (Option.some.inj e).symm)
  · rename_i h
    obtain rfl : code = 3 := BitVec.eq_of_toNat_eq h
    split
    · rename_i h
      exact .command _ rfl (congrArg some h.symm) (fun _ => rfl) (curveWords_curveVector (by omega))
    · rename_i h; exact .badLength (.loadBalanceCurve (Vector.replicate 32 0)) rfl (fun e => h (Option.some.inj e).symm)
  · rename_i h
    obtain rfl : code = 4 := BitVec.eq_of_toNat_eq h
    split
    · rename_i h
      exact .command _ rfl (congrArg some h.symm) (fun _ => rfl) (curveWords_curveVector (by omega))
    · rename_i h; exact .badLength (.loadFadeCurve (Vector.replicate 32 0)) rfl (fun e => h (Option.some.inj e).symm)
  · rename_i h
    obtain rfl : code = 5 := BitVec.eq_of_toNat_eq h
    split
    · exact .command _ rfl rfl (fun _ => rfl) (congrArg (fun x => [x]) (by change _ = assigned 18 _; unfold assigned; ext i hi; grind))
    · rename_i h; exact .badLength (.setChannelTrim 0 0) rfl (fun e => length_ne_one h (Option.some.inj e).symm)
  · rename_i h
    obtain rfl : code = 6 := BitVec.eq_of_toNat_eq h
    split
    · exact .command _ rfl rfl (fun _ => rfl) (congrArg (fun x => [x]) (by change _ = assigned 16 _; unfold assigned; ext i hi; grind))
    · rename_i h; exact .badLength (.setChannelMute 0 0) rfl (fun e => length_ne_one h (Option.some.inj e).symm)
  · rename_i h1 h2 h3 h4 h5 h6
    refine .unknown ?_
    simp [commandIndex, ← BitVec.toNat_inj]
    exact ⟨h1, h2, h3, h4, h5, h6⟩

theorem reads_zoneGain (code : BitVec 8) (ws : List Payload) : Reads 3 code ws (readZoneGain code.toNat ws) := by
  unfold readZoneGain
  split
  · rename_i h
    obtain rfl : code = 1 := BitVec.eq_of_toNat_eq h
    split
    · exact .command _ rfl rfl (fun _ => rfl) (congrArg (fun x => [x]) (byteWord_assigned _))
    · rename_i h; exact .badLength (.setVolume 0) rfl (fun e => length_ne_one h (Option.some.inj e).symm)
  · rename_i h
    obtain rfl : code = 2 := BitVec.eq_of_toNat_eq h
    split
    · exact .command _ rfl rfl (fun _ => rfl) (congrArg (fun x => [x]) (byteWord_assigned _))
    · rename_i h; exact .badLength (.stepVolume 0) rfl (fun e => length_ne_one h (Option.some.inj e).symm)
  · rename_i h
    obtain rfl : code = 3 := BitVec.eq_of_toNat_eq h
    split
    · rename_i h
      exact .command _ rfl (congrArg some h.symm) (fun _ => rfl) (curveWords_curveVector (by omega))
    · rename_i h; exact .badLength (.loadVolumeCurve (Vector.replicate 64 0)) rfl (fun e => h (Option.some.inj e).symm)
  · rename_i h
    obtain rfl : code = 4 := BitVec.eq_of_toNat_eq h
    split
    · exact .command _ rfl rfl (fun _ => rfl) (congrArg (fun x => [x]) (byteWord_assigned _))
    · rename_i h; exact .badLength (.setZoneMute 0) rfl (fun e => length_ne_one h (Option.some.inj e).symm)
  · rename_i h
    obtain rfl : code = 5 := BitVec.eq_of_toNat_eq h
    split
    · exact .command _ rfl rfl (fun _ => rfl) (congrArg (fun x => [x]) (byteWord_assigned _))
    · rename_i h; exact .badLength (.setDuck 0) rfl (fun e => length_ne_one h (Option.some.inj e).symm)
  · rename_i h
    obtain rfl : code = 6 := BitVec.eq_of_toNat_eq h
    split
    · exact .command _ rfl rfl (fun _ => rfl) (congrArg₂ (fun x y => [x, y])
        (by change _ = assigned 26 _; unfold assigned; ext i hi; grind)
        (by change _ = assigned 16 _; unfold assigned; ext i hi; grind))
    · rename_i h; exact .badLength (.setZoneOptions ⟨0, 0, 0, 0, 0⟩) rfl (fun e => length_ne_two h (Option.some.inj e).symm)
  · rename_i h1 h2 h3 h4 h5 h6
    refine .unknown ?_
    simp [commandIndex, ← BitVec.toNat_inj]
    exact ⟨h1, h2, h3, h4, h5, h6⟩

theorem reads_ramp (code : BitVec 8) (ws : List Payload) : Reads 4 code ws (readRamp code.toNat ws) := by
  unfold readRamp
  split
  · rename_i h
    obtain rfl : code = 1 := BitVec.eq_of_toNat_eq h
    split
    · exact .command _ rfl rfl (fun _ => rfl) (congrArg (fun x => [x]) (by change _ = assigned 30 _; unfold assigned; ext i hi; grind))
    · rename_i h; exact .badLength (.setRamp 0 0 0 0) rfl (fun e => length_ne_one h (Option.some.inj e).symm)
  · rename_i h1
    refine .unknown ?_
    simp [commandIndex, ← BitVec.toNat_inj]
    exact h1

theorem reads_speed (code : BitVec 8) (ws : List Payload) : Reads 5 code ws (readSpeed code.toNat ws) := by
  unfold readSpeed
  split
  · rename_i h
    obtain rfl : code = 1 := BitVec.eq_of_toNat_eq h
    split
    · exact .command _ rfl rfl (fun _ => rfl) (congrArg (fun x => [x]) (by change _ = assigned 11 _; unfold flagAt bit assigned; ext i hi; grind))
    · rename_i h; exact .badLength (.vehicleState 0 false) rfl (fun e => length_ne_one h (Option.some.inj e).symm)
  · rename_i h
    obtain rfl : code = 2 := BitVec.eq_of_toNat_eq h
    split
    · exact .command _ rfl rfl (fun _ => rfl) (congrArg₂ (fun x y => [x, y])
        (by change _ = assigned 26 _; unfold assigned; ext i hi; grind)
        (by change _ = assigned 10 _; unfold assigned; ext i hi; grind))
    · rename_i h; exact .badLength (.setSpeedPolicy ⟨0, 0, 0, 0⟩) rfl (fun e => length_ne_two h (Option.some.inj e).symm)
  · rename_i h
    obtain rfl : code = 3 := BitVec.eq_of_toNat_eq h
    split
    · rename_i w ps
      split
      · rename_i count
        refine .command _ rfl (congrArg some ?_) ?_ ?_
        · change 1 + (w.extractLsb' 22 8).toNat = _
          rw [← count, List.length_cons, Nat.add_comm]
        · intro small
          rw [List.length_cons] at small
          simp only [sendable, List.length_map, decide_eq_true_eq]; omega
        · simp only [payloadWords, List.length_map, count, List.mapIdx_cons, List.map_map, BitVec.ofNat_toNat,
            BitVec.setWidth_eq, byteWord_assigned]
          exact congrArg _ (map_eq_mapIdx breakpointPayload_assigned (fun _ => rfl) _)
      · rename_i h
        refine .badLength (.loadSdvCurve []) rfl fun e => h ?_
        have e : 1 + (w.extractLsb' 22 8).toNat = (w :: ps).length := Option.some.inj e
        rw [List.length_cons] at e
        omega
    · rename_i h
      match ws with
      | [] => exact .badLength (.loadSdvCurve []) rfl (fun e => by cases e)
      | w :: ps => exact absurd rfl (h w ps)
  · rename_i h1 h2 h3
    refine .unknown ?_
    simp [commandIndex, ← BitVec.toNat_inj]
    exact ⟨h1, h2, h3⟩

theorem reads_routing (code : BitVec 8) (ws : List Payload) : Reads 6 code ws (readRouting code.toNat ws) := by
  unfold readRouting
  split
  · rename_i h
    obtain rfl : code = 1 := BitVec.eq_of_toNat_eq h
    split
    · exact .command _ rfl rfl (fun _ => rfl) (congrArg (fun x => [x]) (by change _ = assigned 14 _; unfold flagAt bit assigned; ext i hi; grind))
    · rename_i h; exact .badLength (.loadSource 0 false 0) rfl (fun e => length_ne_one h (Option.some.inj e).symm)
  · rename_i h
    obtain rfl : code = 2 := BitVec.eq_of_toNat_eq h
    split
    · rename_i w v ts
      split
      · rename_i count
        have few := (w.extractLsb' 12 3).isLt
        refine .command _ rfl (congrArg some ?_) ?_ ?_
        · change 2 + (w.extractLsb' 12 3).toNat = _
          rw [← count, List.length_cons, List.length_cons]; omega
        · intro _; simp only [sendable, List.length_map, count, decide_eq_true_eq]; omega
        · simp only [payloadWords, List.length_map, count, List.mapIdx_cons, List.map_map, BitVec.ofNat_toNat,
            BitVec.setWidth_eq]
          refine congrArg₂ List.cons ?_ (congrArg₂ List.cons ?_ (map_eq_mapIdx tapPayload_assigned
            (fun _ => rfl) _))
          · change _ = assigned 28 _; unfold readChannelWords flagAt bit assigned; ext i hi; grind
          · change _ = assigned 15 _; unfold readChannelWords assigned; ext i hi; grind
      · rename_i h
        refine .badLength (.loadChannel ⟨0, false, 0, false, 0, 0, 0, 0⟩ []) rfl fun e => h ?_
        have e : 2 + (w.extractLsb' 12 3).toNat = (w :: v :: ts).length := Option.some.inj e
        rw [List.length_cons, List.length_cons] at e
        omega
    · rename_i h
      match ws with
      | [] => exact .badLength (.loadChannel ⟨0, false, 0, false, 0, 0, 0, 0⟩ []) rfl (fun e => by cases e)
      | [w] =>
        refine .badLength (.loadChannel ⟨0, false, 0, false, 0, 0, 0, 0⟩ []) rfl fun e => ?_
        have e : 2 + (w.extractLsb' 12 3).toNat = 1 := Option.some.inj e
        omega
      | w :: v :: ts => exact absurd rfl (h w v ts)
  · rename_i h1 h2
    refine .unknown ?_
    simp [commandIndex, ← BitVec.toNat_inj]
    exact ⟨h1, h2⟩

theorem reads_equaliser (code : BitVec 8) (ws : List Payload) : Reads 7 code ws (readEqualiser code.toNat ws) := by
  unfold readEqualiser
  split
  · rename_i h
    obtain rfl : code = 1 := BitVec.eq_of_toNat_eq h
    split
    · refine .command _ rfl rfl (fun _ => rfl) ?_
      simp only [payloadWords, byteWord_assigned, coeffWord_assigned]
      rfl
    · rename_i h; exact .badLength (.loadSection 0 ⟨0, 0, 0, 0, 0⟩) rfl (fun e => length_ne_six h (Option.some.inj e).symm)
  · rename_i h
    obtain rfl : code = 2 := BitVec.eq_of_toNat_eq h
    split
    · rename_i w es
      split
      · rename_i count
        have few := (w.extractLsb' 14 4).isLt
        refine .command _ rfl (congrArg some ?_) ?_ ?_
        · change 1 + (w.extractLsb' 14 4).toNat = _
          rw [← count, List.length_cons, Nat.add_comm]
        · intro _; simp only [sendable, List.length_map, count, decide_eq_true_eq]; omega
        · simp only [payloadWords, List.length_map, count, List.mapIdx_cons, List.map_map, BitVec.ofNat_toNat,
            BitVec.setWidth_eq]
          refine congrArg₂ List.cons ?_ (map_eq_mapIdx byteWord_assigned (fun _ => rfl) _)
          change _ = assigned 16 _; unfold assigned; ext i hi; grind
      · rename_i h
        refine .badLength (.loadProgram 0 0 []) rfl fun e => h ?_
        have e : 1 + (w.extractLsb' 14 4).toNat = (w :: es).length := Option.some.inj e
        rw [List.length_cons] at e
        omega
    · rename_i h
      match ws with
      | [] => exact .badLength (.loadProgram 0 0 []) rfl (fun e => by cases e)
      | w :: es => exact absurd rfl (h w es)
  · rename_i h
    obtain rfl : code = 3 := BitVec.eq_of_toNat_eq h
    split
    · exact .command _ rfl rfl (fun _ => rfl) (congrArg (fun x => [x]) (by change _ = assigned 4 _; unfold assigned; ext i hi; grind))
    · rename_i h; exact .badLength (.selectPage 0) rfl (fun e => length_ne_one h (Option.some.inj e).symm)
  · rename_i h1 h2 h3
    refine .unknown ?_
    simp [commandIndex, ← BitVec.toNat_inj]
    exact ⟨h1, h2, h3⟩

theorem reads_notices (code : BitVec 8) (ws : List Payload) : Reads 8 code ws (readNotices code.toNat ws) := by
  unfold readNotices
  split
  · rename_i h
    obtain rfl : code = 1 := BitVec.eq_of_toNat_eq h
    split
    · exact .command _ rfl rfl (fun _ => rfl) (congrArg (fun x => [x]) (by change _ = assigned 6 _; unfold readKinds flagAt bit assigned; ext i hi; grind))
    · rename_i h; exact .badLength (.setNoticeEnable NoticeSet.empty) rfl (fun e => length_ne_one h (Option.some.inj e).symm)
  · rename_i h
    obtain rfl : code = 2 := BitVec.eq_of_toNat_eq h
    split
    · exact .command _ rfl rfl (fun _ => rfl) rfl
    · rename_i h; exact .badLength (.statusPoll) rfl (fun e => length_ne_zero h (Option.some.inj e).symm)
  · rename_i h
    obtain rfl : code = 3 := BitVec.eq_of_toNat_eq h
    split
    · exact .command _ rfl rfl (fun _ => rfl) rfl
    · rename_i h; exact .badLength (.rollCall) rfl (fun e => length_ne_zero h (Option.some.inj e).symm)
  · rename_i h
    obtain rfl : code = 4 := BitVec.eq_of_toNat_eq h
    split
    · exact .command _ rfl rfl (fun _ => rfl) (congrArg (fun x => [x]) (by change _ = assigned 8 _; unfold assigned; ext i hi; grind))
    · rename_i h; exact .badLength (.rollCallAssign 0 0) rfl (fun e => length_ne_one h (Option.some.inj e).symm)
  · rename_i h
    obtain rfl : code = 5 := BitVec.eq_of_toNat_eq h
    split
    · exact .command _ rfl rfl (fun _ => rfl) rfl
    · rename_i h; exact .badLength (.readMeters) rfl (fun e => length_ne_zero h (Option.some.inj e).symm)
  · rename_i h1 h2 h3 h4 h5
    refine .unknown ?_
    simp [commandIndex, ← BitVec.toNat_inj]
    exact ⟨h1, h2, h3, h4, h5⟩

theorem reads (space : BitVec 4) (code : BitVec 8) (ws : List Payload) :
    Reads space code ws (readMessage space code ws) := by
  unfold readMessage
  split
  · rename_i h
    obtain rfl : space = 1 := BitVec.eq_of_toNat_eq h
    exact reads_port code ws
  · rename_i h
    obtain rfl : space = 2 := BitVec.eq_of_toNat_eq h
    exact reads_cabinGain code ws
  · rename_i h
    obtain rfl : space = 3 := BitVec.eq_of_toNat_eq h
    exact reads_zoneGain code ws
  · rename_i h
    obtain rfl : space = 4 := BitVec.eq_of_toNat_eq h
    exact reads_ramp code ws
  · rename_i h
    obtain rfl : space = 5 := BitVec.eq_of_toNat_eq h
    exact reads_speed code ws
  · rename_i h
    obtain rfl : space = 6 := BitVec.eq_of_toNat_eq h
    exact reads_routing code ws
  · rename_i h
    obtain rfl : space = 7 := BitVec.eq_of_toNat_eq h
    exact reads_equaliser code ws
  · rename_i h
    obtain rfl : space = 8 := BitVec.eq_of_toNat_eq h
    exact reads_notices code ws
  · rename_i h1 h2 h3 h4 h5 h6 h7 h8
    refine .unknown ?_
    simp only [commandIndex, List.mem_cons, Prod.mk.injEq, ← BitVec.toNat_inj]
    grind

theorem not_indexed {space : BitVec 4} {code : BitVec 8} (h : (space, code) ∉ commandIndex) (c : Command) :
    commandCode c ≠ (space, code) := fun e => h (e ▸ commandCode_mem c)

theorem readMessage_code {space : BitVec 4} {code : BitVec 8} {ws : List Payload} {c : Command}
    (h : readMessage space code ws = .command c) : commandCode c = (space, code) := by
  have r := reads space code ws
  rw [h] at r
  cases r with
  | command _ index count sendable words => exact index

/-- Entry `2 k` of a curve is the first of word `k`, and entry `2 k + 1` the second (12.4). -/
theorem curveVector_entry {n m : Nat} (ws : Vector Payload n) (k : Fin n) (i : Fin m) :
    (i.val = 2 * k.val → (curveVector m ws.toList)[i] = ws[k].extractLsb' 18 12) ∧
    (i.val = 2 * k.val + 1 → (curveVector m ws.toList)[i] = ws[k].extractLsb' 6 12) := by
  have word : ws.toList[k.val]? = some ws[k] := by simp
  have entry (j : Nat) (hj : j < 2) : (curveEntries ws.toList)[2 * k.val + j]? =
      ([ws[k].extractLsb' 18 12, ws[k].extractLsb' 6 12] : List (BitVec 12))[j]? := by
    unfold curveEntries
    rw [getElem?_flatMap_chunks 2 _ (fun _ => rfl) _ _ _ hj, word]
    rfl
  constructor
  · intro e
    have first := entry 0 (by omega)
    simp only [curveVector, Fin.getElem_fin, Vector.getElem_ofFn, e, List.getD]
    simp only [Nat.add_zero] at first
    rw [first]
    rfl
  · intro e
    have second := entry 1 (by omega)
    simp only [curveVector, Fin.getElem_fin, Vector.getElem_ofFn, e, List.getD]
    rw [second]
    rfl

/-- Settles O13: a message reads in one of three ways, each exactly where the index and the counts say so. -/
theorem messageReadingIsExact : Obligations.MessageReadingIsExact := by
  refine ⟨fun space code ws small => ?_, fun space code ws c small h => ?_, fun w v => ?_, fun ws => ?_, fun ws => ?_,
    fun b0 b1 b2 a1 a2 w => rfl, fun w v rest => ⟨fun n => ?_, fun n => ?_, fun n => ?_⟩⟩
  · have r := reads space code ws
    generalize readMessage space code ws = m at r
    cases r with
    | unknown h => exact ⟨iff_of_true rfl (not_indexed h), iff_of_false (by simp) fun ⟨⟨c, index⟩, _⟩ => not_indexed h c index⟩
    | badLength c index count => exact ⟨iff_of_false (by simp) fun h => h c index, iff_of_true rfl ⟨⟨c, index⟩, count⟩⟩
    | command c index count sendable words =>
      exact ⟨iff_of_false (by simp) fun h => h c index, iff_of_false (by simp) fun h => h.2 count⟩
  · have r := reads space code ws
    rw [h] at r
    cases r with
    | command _ index count sendable words =>
      refine ⟨index, by rw [words, List.length_mapIdx], sendable small, fun i w hw => ?_⟩
      rw [words, List.getElem?_mapIdx, hw]
      rfl
  · exact ⟨rfl, rfl, rfl, rfl, rfl, rfl, rfl, rfl, rfl, rfl, rfl, rfl, rfl, rfl, rfl, rfl, rfl, rfl, rfl, rfl, rfl, rfl⟩
  · refine ⟨curveVector 32 ws.toList, if_pos (by simp), if_pos (by simp), fun k i => (curveVector_entry ws k i).1,
      fun k i => (curveVector_entry ws k i).2⟩
  · exact ⟨curveVector 64 ws.toList, if_pos (by simp), fun k i => (curveVector_entry ws k i).1,
      fun k i => (curveVector_entry ws k i).2⟩
  · exact if_pos n.symm
  · exact if_pos n.symm
  · exact if_pos n.symm

end Sys2Proof.Machine
end

section
/-! What a completed message does (R156). -/

namespace Sys2Proof.Machine

variable {s t u : State} {r : Route} {c : Command}

@[simp] theorem done_after (k : ResultCode) (s : State) : (done k s).after = .nothing := rfl
@[simp] theorem answerData_after (ws : List Word32) (s : State) : (answerData ws s).after = .nothing := rfl

/-- Only DEVICE_RESET defers a device reset (R159). -/
theorem takeCommand_deviceReset (z : Zone) (s : State) (c : Command) :
    (takeCommand z s c).after = .deviceReset ↔ c = .deviceReset := by
  cases c with
  | deviceReset => exact iff_of_true rfl rfl
  | assignAddress a tw => exact iff_of_false (fun e => by cases e) (fun e => by cases e)
  | _ =>
    refine iff_of_false ?_ (fun e => by cases e)
    simp only [takeCommand, takeReadTable, takeSetBalance, takeSetFade, takeLoadBalanceCurve, takeLoadFadeCurve,
      takeSetChannelTrim, takeSetChannelMute, takeSetVolume, takeStepVolume, takeLoadVolumeCurve, takeSetZoneMute,
      takeSetDuck, takeSetZoneOptions, takeSetRamp, takeVehicleState, takeSetSpeedPolicy, takeLoadSdvCurve, takeLoadSource,
      takeLoadChannel, takeLoadSection, takeLoadProgram, takeSelectPage, takeSetNoticeEnable, takeStatusPoll, takeRollCall,
      takeRollCallAssign, takeReadMeters]
    repeat' split
    all_goals simp

/-- A message that is judged as a command: a device reset follows where it is a broadcast DEVICE_RESET (R159). -/
theorem judgeMessage_reset (space : BitVec 4) (code : BitVec 8) (index : commandCode c = (space, code)) :
    ((judgeMessage r space code (.command c) s).reset = true ↔ c = .deviceReset ∧ r.address = 31) ∧
    ((judgeMessage r space code (.command c) s).reset = true → (judgeMessage r space code (.command c) s).state = s) := by
  by_cases hb : r.address = broadcast
  · have all : r.address = 31 := hb
    have judged : judgeMessage r space code (.command c) s =
        if isDataCode space code then { state := s, reset := false }
        else applyDeferred (takeCommand (routeZone s.port r) s c).after (takeCommand (routeZone s.port r) s c).state := by
      unfold judgeMessage broadcastMessage
      rw [if_pos hb]
    by_cases reset : c = .deviceReset
    · subst reset
      obtain ⟨rfl, rfl⟩ := Prod.mk.inj index
      have judged : judgeMessage r (1 : BitVec 4) (2 : BitVec 8) (.command .deviceReset) s =
        { state := s, reset := true } := judged
      rw [judged]
      exact ⟨iff_of_true rfl ⟨rfl, all⟩, fun _ => rfl⟩
    · have none : (judgeMessage r space code (.command c) s).reset = false := by
        rw [judged]
        split
        · rfl
        · have after := (takeCommand_deviceReset (routeZone s.port r) s c).not.mpr reset
          revert after
          cases (takeCommand (routeZone s.port r) s c).after with
          | nothing => exact fun _ => rfl
          | newAddress n tw => exact fun _ => rfl
          | deviceReset => exact fun h => absurd rfl h
      rw [none]
      exact ⟨iff_of_false (by simp) fun h => reset h.1, fun h => by cases h⟩
  · have none : (judgeMessage r space code (.command c) s).reset = false := by
      unfold judgeMessage
      rw [if_neg hb]
      split <;> rfl
    rw [none]
    exact ⟨iff_of_false (by simp) fun h => hb h.2, fun h => by cases h⟩

theorem judgeMessage_quiet (hb : r.address ≠ broadcast) (quiet : s.port.sender = .quiet) (space : BitVec 4) (code : BitVec 8)
    (m : Reading) : judgeMessage r space code m s = { state := answerMessage r space code m s, reset := false } := by
  unfold judgeMessage
  rw [if_neg hb, quiet]

/-- Settles O14: a command's row delivers the command, and delivering it judges its message. -/
theorem messageIsTheRow : Obligations.MessageIsTheRow := by
  refine ⟨fun s h ws c reads pin lock heard => ?_, fun s h ws hb quiet => ⟨fun unknown => ?_, fun bad => ?_⟩,
    fun s h ws w rest d hb busy => ?_, fun s h ws hb unread => ?_⟩
  · have index := readMessage_code reads
    have judged : completeMessage h ws s = judgeMessage h.route h.space h.command (.command c) (setAssembler .idle s) := by
      unfold completeMessage; rw [reads]
    have listens : listening (setAssembler .idle s) = true := listening_iff.mpr ⟨pin, lock⟩
    obtain ⟨reset, kept⟩ := judgeMessage_reset (s := setAssembler .idle s) (r := h.route) h.space h.command index
    dsimp only
    rw [judged]
    refine ⟨fun row => ?_, fun roll hb => ?_, reset, kept⟩
    · have delivered : deliver h.route c (setAssembler .idle s) =
          (judgeMessage h.route h.space h.command (.command c) (setAssembler .idle s)).finish := by
        unfold deliver
        rw [index, if_pos]
        rw [listens]
        have same : answersTo (setAssembler .idle s).port h.route.address = answersTo s.port h.route.address := rfl
        rw [same]
        simpa [broadcast] using heard
      rw [← delivered]
      exact (exec_rowOf (row.imp_right .inr)).symm
    · subst roll
      obtain ⟨space, code⟩ := Prod.mk.inj index
      have hb : h.route.address = broadcast := hb
      unfold judgeMessage broadcastMessage
      rw [if_pos hb, ← space, ← code]
      rfl
  · unfold completeMessage
    rw [unknown, judgeMessage_quiet (s := setAssembler .idle s) hb quiet]
    rfl
  · unfold completeMessage
    rw [bad, judgeMessage_quiet (s := setAssembler .idle s) hb quiet]
    rfl
  · have hb : h.route.address ≠ broadcast := hb
    have busy : (setAssembler .idle s).port.sender = .answering w rest d := busy
    unfold completeMessage judgeMessage
    rw [if_neg hb, busy]
    simp only [notify_ctrlLost]
    rfl
  · have hb : h.route.address = broadcast := hb
    unfold completeMessage judgeMessage broadcastMessage
    rw [if_pos hb]
    obtain e | e := unread <;> rw [e] <;> rfl

end Sys2Proof.Machine
end

section
/-! The words of the tables READ_TABLE answers with (R172). -/

namespace Sys2Proof.Machine

variable {s : State}

/-! ### Packed words -/

@[simp] theorem fieldsWidth_nil : fieldsWidth [] = 0 := rfl
@[simp] theorem fieldsWidth_cons (f : Field) (fs : List Field) : fieldsWidth (f :: fs) = f.width + fieldsWidth fs := rfl
@[simp] theorem fieldsValue_nil : fieldsValue [] = 0 := rfl
@[simp] theorem fieldsValue_cons (f : Field) (fs : List Field) :
    fieldsValue (f :: fs) = f.bits.toNat * 2 ^ fieldsWidth fs + fieldsValue fs := rfl

theorem packWord_eq {fs : List Field} {x : Word32} (width : fieldsWidth fs ≤ 32)
    (value : x.toNat = fieldsValue fs * 2 ^ (32 - fieldsWidth fs)) : packWord fs = x :=
  BitVec.eq_of_toNat_eq ((packWord_toNat fs width).trans value.symm)

/-! ### The words of each record -/

theorem sourceWord (k : Option AudioSlot) : packWord (optFields 5 (k.map Fin.val)) =
    k.elim 0 fun k => (1 : BitVec 1) ++ BitVec.ofNat 5 k.val ++ (0 : BitVec 26) := by
  cases k with
  | none => exact packWord_eq (Nat.le_of_ble_eq_true rfl) rfl
  | some k =>
    change packWord [flag true, nat 5 k.val] = (1 : BitVec 1) ++ BitVec.ofNat 5 k.val ++ (0 : BitVec 26)
    refine packWord_eq (Nat.le_of_ble_eq_true rfl) ?_
    simp only [append_toNat]
    simp [bit]

theorem channelWord (r : ChannelRecord) :
    packWord (optFields 5 (r.out.map Fin.val) ++ [nat 1 (zoneBit r.zone), nat 3 r.taps.length, int 5 r.x, nat 4 r.y]) =
      bit r.out.isSome ++ BitVec.ofNat 5 (r.out.elim 0 Fin.val) ++ bit (r.zone == .b)
      ++ BitVec.ofNat 3 r.taps.length ++ BitVec.ofInt 5 r.x ++ BitVec.ofNat 4 r.y ++ (0 : BitVec 13) := by
  have out : (r.out.map Fin.val).getD 0 = r.out.elim 0 Fin.val := by cases r.out <;> rfl
  have zone : BitVec.ofNat 1 (zoneBit r.zone) = bit (r.zone == .b) := by cases r.zone <;> rfl
  refine packWord_eq (Nat.le_of_ble_eq_true rfl) ?_
  simp only [append_toNat, ← zone]
  simp [optFields, out]
  omega

theorem trimWord (x : Int) (n : Nat) : packWord [int 8 x, nat 5 n] =
    BitVec.ofInt 8 x ++ BitVec.ofNat 5 n ++ (0 : BitVec 19) := by
  refine packWord_eq (Nat.le_of_ble_eq_true rfl) ?_
  simp only [append_toNat]
  simp

theorem tapWord_some (t : Tap) : tapWord (some t) =
    BitVec.ofNat 3 t.source.val ++ BitVec.ofInt 11 t.gain ++ bit t.duck ++ (0 : BitVec 17) := by
  refine packWord_eq (Nat.le_of_ble_eq_true rfl) ?_
  simp only [append_toNat]
  simp
  omega

theorem sectionWord (b : Bool) (n : Nat) : packWord [flag b, nat 8 n] =
    bit b ++ BitVec.ofNat 8 n ++ (0 : BitVec 23) := by
  refine packWord_eq (Nat.le_of_ble_eq_true rfl) ?_
  simp only [append_toNat]
  simp

theorem coeffWord_packed (k : Coeff) : packWord [nat 24 k.toNat] =
    k ++ (0 : BitVec 8) := by
  refine packWord_eq (Nat.le_of_ble_eq_true rfl) ?_
  simp only [append_toNat]
  simp

theorem programWord_first (n a b c : Nat) : packWord [nat 3 n, nat 7 a, nat 7 b, nat 7 c] =
    BitVec.ofNat 3 n ++ BitVec.ofNat 7 a ++ BitVec.ofNat 7 b ++ BitVec.ofNat 7 c ++ (0 : BitVec 8) := by
  refine packWord_eq (Nat.le_of_ble_eq_true rfl) ?_
  simp only [append_toNat]
  simp
  omega

theorem programWord_second (a b c : Nat) : packWord [nat 7 a, nat 7 b, nat 7 c] =
    BitVec.ofNat 7 a ++ BitVec.ofNat 7 b ++ BitVec.ofNat 7 c ++ (0 : BitVec 11) := by
  refine packWord_eq (Nat.le_of_ble_eq_true rfl) ?_
  simp only [append_toNat]
  simp
  omega

theorem cabinWord (x y : Int) : packWord [int 7 x, int 7 y] =
    BitVec.ofInt 7 x ++ BitVec.ofInt 7 y ++ (0 : BitVec 18) := by
  refine packWord_eq (Nat.le_of_ble_eq_true rfl) ?_
  simp only [append_toNat]
  simp

theorem attenuationWord (a b : Nat) : packWord [nat 10 a, nat 10 b] =
    BitVec.ofNat 10 a ++ BitVec.ofNat 10 b ++ (0 : BitVec 12) := by
  refine packWord_eq (Nat.le_of_ble_eq_true rfl) ?_
  simp only [append_toNat]
  simp

theorem gainWord (a b : Int) : packWord [int 11 a, int 11 b] =
    BitVec.ofInt 11 a ++ BitVec.ofInt 11 b ++ (0 : BitVec 10) := by
  refine packWord_eq (Nat.le_of_ble_eq_true rfl) ?_
  simp only [append_toNat]
  simp

theorem optionsWord (z : ZoneRecord) : packWord [nat 6 z.step.val, flag z.mute, flag z.commandDuck, flag z.mask, flag z.speedPages, nat 4 z.exponent,
      nat 2 z.userPage.val, nat 2 z.requestedPage.val] =
    BitVec.ofNat 6 z.step.val ++ bit z.mute ++ bit z.commandDuck ++ bit z.mask ++ bit z.speedPages
        ++ BitVec.ofNat 4 z.exponent ++ BitVec.ofNat 2 z.userPage.val ++ BitVec.ofNat 2 z.requestedPage.val
        ++ (0 : BitVec 14) := by
  refine packWord_eq (Nat.le_of_ble_eq_true rfl) ?_
  simp only [append_toNat]
  simp
  omega

theorem depthWord (n : Nat) (x : Int) : packWord [nat 10 n, int 11 x] =
    BitVec.ofNat 10 n ++ BitVec.ofInt 11 x ++ (0 : BitVec 11) := by
  refine packWord_eq (Nat.le_of_ble_eq_true rfl) ?_
  simp only [append_toNat]
  simp

theorem countWord (n : Nat) : packWord [nat 5 n] =
    BitVec.ofNat 5 n ++ (0 : BitVec 27) := by
  refine packWord_eq (Nat.le_of_ble_eq_true rfl) ?_
  simp only [append_toNat]
  simp

theorem breakpointWord_some (p : Breakpoint) : breakpointWord (some p) =
    BitVec.ofNat 9 p.speed ++ BitVec.ofInt 8 p.boost ++ bit p.page.isSome
      ++ BitVec.ofNat 2 (p.page.elim 0 Fin.val) ++ (0 : BitVec 12) := by
  have page : (p.page.map Fin.val).getD 0 = p.page.elim 0 Fin.val := by cases p.page <;> rfl
  refine packWord_eq (Nat.le_of_ble_eq_true rfl) ?_
  simp only [append_toNat]
  simp [optFields, page]
  omega

theorem trackerWord (a b : Bool) (x y z : Nat) : packWord [flag a, flag b, nat 9 x, nat 9 y, nat 9 z] =
    bit a ++ bit b ++ BitVec.ofNat 9 x ++ BitVec.ofNat 9 y ++ BitVec.ofNat 9 z ++ (0 : BitVec 3) := by
  refine packWord_eq (Nat.le_of_ble_eq_true rfl) ?_
  simp only [append_toNat]
  simp
  omega

theorem counterWord (n : Nat) : packWord [nat 17 n] =
    BitVec.ofNat 17 n ++ (0 : BitVec 15) := by
  refine packWord_eq (Nat.le_of_ble_eq_true rfl) ?_
  simp only [append_toNat]
  simp

theorem policyWord (a b c d : Nat) : packWord [nat 8 a, nat 5 b, nat 8 c, nat 9 d] =
    BitVec.ofNat 8 a ++ BitVec.ofNat 5 b ++ BitVec.ofNat 8 c ++ BitVec.ofNat 9 d ++ (0 : BitVec 2) := by
  refine packWord_eq (Nat.le_of_ble_eq_true rfl) ?_
  simp only [append_toNat]
  simp
  omega

theorem steadyWord (s : State) (p : Page) : switchWord s (.steady p) =
    (0 : BitVec 2) ++ BitVec.ofNat 2 p.val ++ (0 : BitVec 28) := by
  refine packWord_eq (Nat.le_of_ble_eq_true rfl) ?_
  simp only [append_toNat]
  simp [bit]
  omega

theorem queuedWord (s : State) (p q : Page) : switchWord s (.queued p q) =
    (1 : BitVec 2) ++ BitVec.ofNat 2 p.val ++ BitVec.ofNat 2 q.val ++ (0 : BitVec 26) := by
  refine packWord_eq (Nat.le_of_ble_eq_true rfl) ?_
  simp only [append_toNat]
  simp [bit]
  omega

theorem fadingWord {i : FadeSlot} {f : Fade} (h : s.sched.slots[i] = some f) (p : Page) : switchWord s (.fading p i) =
    (2 : BitVec 2) ++ BitVec.ofNat 2 p.val ++ BitVec.ofNat 2 f.target.val ++ BitVec.ofNat 3 i.val
      ++ bit f.next.isSome ++ BitVec.ofNat 2 (f.next.elim 0 Fin.val) ++ (0 : BitVec 20) := by
  have next : (f.next.map Fin.val).getD 0 = f.next.elim 0 Fin.val := by cases f.next <;> rfl
  unfold switchWord
  simp only [h, Option.elim_some, Option.bind_some]
  refine packWord_eq (Nat.le_of_ble_eq_true rfl) ?_
  simp only [append_toNat]
  simp [optFields, next]
  omega

theorem settledWord (a b : Bool) : packWord [flag a, flag b] =
    bit a ++ bit b ++ (0 : BitVec 30) := by
  refine packWord_eq (Nat.le_of_ble_eq_true rfl) ?_
  simp only [append_toNat]
  simp

theorem slotWord (f : Fade) : packWord ([flag true, nat 5 f.channel.val, nat 2 f.old.val, nat 2 f.target.val] ++
      optFields 2 (f.next.map Fin.val)) =
    (1 : BitVec 1) ++ BitVec.ofNat 5 f.channel.val ++ BitVec.ofNat 2 f.old.val ++ BitVec.ofNat 2 f.target.val
      ++ bit f.next.isSome ++ BitVec.ofNat 2 (f.next.elim 0 Fin.val) ++ (0 : BitVec 19) := by
  have next : (f.next.map Fin.val).getD 0 = f.next.elim 0 Fin.val := by cases f.next <;> rfl
  refine packWord_eq (Nat.le_of_ble_eq_true rfl) ?_
  simp only [append_toNat]
  simp [optFields, next, bit]
  omega

theorem progressWord (k n : Nat) : packWord [nat 13 k, nat 14 n] =
    BitVec.ofNat 13 k ++ BitVec.ofNat 14 n ++ (0 : BitVec 5) := by
  refine packWord_eq (Nat.le_of_ble_eq_true rfl) ?_
  simp only [append_toNat]
  simp

theorem waitingWord (c p : Nat) : packWord [nat 5 c, nat 2 p] =
    BitVec.ofNat 5 c ++ BitVec.ofNat 2 p ++ (0 : BitVec 25) := by
  refine packWord_eq (Nat.le_of_ble_eq_true rfl) ?_
  simp only [append_toNat]
  simp

theorem speedLaneWord (a b : Int) : packWord [int 8 a, int 8 b] =
    BitVec.ofInt 8 a ++ BitVec.ofInt 8 b ++ (0 : BitVec 16) := by
  refine packWord_eq (Nat.le_of_ble_eq_true rfl) ?_
  simp only [append_toNat]
  simp

theorem settingsWord_eq (l : LaneSettings) : settingsWord l =
    BitVec.ofNat 8 l.period ++ BitVec.ofNat 7 l.first ++ BitVec.ofNat 7 l.second ++ (0 : BitVec 10) := by
  refine packWord_eq (Nat.le_of_ble_eq_true rfl) ?_
  simp only [append_toNat]
  simp
  omega

end Sys2Proof.Machine
end

section
/-! Where the words of the tables stand, and READ_TABLE (R172). -/

namespace Sys2Proof.Machine

variable {s : State}

/-! ### Where the words stand -/

theorem inPairs_length {α : Type} : ∀ (n : Nat) (l : List α), l.length = 2 * n → (inPairs l).length = n
  | 0, [], _ => rfl
  | n + 1, a :: b :: rest, h => by
    have ih := inPairs_length n rest (by simp at h; omega)
    simp [inPairs, ih]
  | 0, _ :: _, h => by simp at h
  | n + 1, [], h => by simp at h
  | n + 1, [a], h => by simp at h; omega

theorem pairWords_length {α : Type} {n : Nat} (f : α → Field) (v : Vector α (2 * n)) :
    (pairWords (v.toList.map f)).length = n := by
  simp [pairWords, inPairs_length n (v.toList.map f) (by simp)]

theorem pairWords_at {α : Type} {n : Nat} (f : α → Field) (v : Vector α (2 * n)) (j : Nat) (k l : Fin (2 * n))
    (hk : k.val = 2 * j) (hl : l.val = 2 * j + 1) :
    (pairWords (v.toList.map f))[j]? = some (packWord [f v[k], f v[l]]) := by
  refine inPairs_map_at packWord (v.toList.map f) j _ _ ?_ ?_
  · simp [← hk]
  · simp [← hl]

theorem sectionTable_at (p j k : Nat) (i : SectionId) (hi : i.val = 32 * p + j) (hj : j < 32) (hk : k < 6) :
    (sectionTable p s)[6 * j + k]? = (sectionWords s.equaliser.sections[i])[k]? := by
  unfold sectionTable
  rw [getElem?_flatMap_chunks 6 _ (fun _ => rfl) _ _ _ hk, List.getElem?_take_of_lt hj, List.getElem?_drop, ← hi]
  simp

theorem programTable_at (p : Page) (c : Chan) (k : Nat) (hk : k < 2) :
    (programTable s)[2 * (24 * p.val + c.val) + k]? = (programWords (programOf s p c))[k]? := by
  have inner (v : Vector Program 24) : (v.toList.flatMap programWords).length = 48 := by
    simp [programWords]
  have index : 2 * (24 * p.val + c.val) + k = 48 * p.val + (2 * c.val + k) := by omega
  unfold programTable
  rw [index, getElem?_flatMap_chunks 48 _ inner _ _ _ (by omega)]
  simp only [Vector.getElem?_toList, Fin.is_lt, Vector.getElem?_eq_getElem, Option.bind_some]
  rw [getElem?_flatMap_chunks 2 _ (fun _ => rfl) _ _ _ hk]
  simp [programOf]

theorem slotTable_at (i : FadeSlot) (k : Nat) (hk : k < 2) :
    (slotTable s)[2 * i.val + k]? = (slotWords s.sched.slots[i])[k]? := by
  have two (f : Option Fade) : (slotWords f).length = 2 := by cases f <;> rfl
  unfold slotTable
  rw [getElem?_flatMap_chunks 2 _ two _ _ _ hk]
  simp

theorem laneTable_at (c : Chan) (k : Nat) (hk : k < 3) : (laneTable s)[3 * c.val + k]? = (laneWords s c)[k]? := by
  have all : ((List.finRange 24).flatMap (laneWords s)).length = 72 := by simp [laneWords]
  unfold laneTable
  rw [List.append_assoc, List.getElem?_append_left (by omega),
    getElem?_flatMap_chunks 3 _ (fun _ => rfl) _ _ _ hk]
  simp

theorem laneTable_tail (k : Nat) : (laneTable s)[72 + k]? =
    [packWord [int 11 s.gain.targets.duck.a, int 11 s.ramp.currents.duck.a],
     packWord [int 11 s.gain.targets.duck.b, int 11 s.ramp.currents.duck.b], settingsWord s.ramp.lanes.user,
     settingsWord s.ramp.lanes.speed, settingsWord s.ramp.lanes.mute, settingsWord s.ramp.lanes.duck][k]? := by
  have all : ((List.finRange 24).flatMap (laneWords s)).length = 72 := by simp [laneWords]
  unfold laneTable
  rw [List.append_assoc, List.getElem?_append_right (by omega), all, Nat.add_sub_cancel_left]
  rfl

theorem zoneWords_length (z : ZoneRecord) : (zoneWords z).length = 51 := by
  have curve := pairWords_length (n := 32) (int 11) z.curve
  simp [zoneWords, curve]

/-- The first word of a zone in the zone table (R57). -/
def zoneBase : Zone → Nat
  | .a => 0
  | .b => 51

theorem zoneTable_at (z : Zone) (k : Nat) (hk : k < 51) :
    (zoneTable s)[zoneBase z + k]? = (zoneWords (s.gain.zones.get z))[k]? := by
  have ha := zoneWords_length s.gain.zones.a
  have hb := zoneWords_length s.gain.zones.b
  unfold zoneTable
  rw [List.append_assoc]
  cases z with
  | a => rw [zoneBase, Nat.zero_add, List.getElem?_append_left (by omega)]; rfl
  | b =>
    rw [zoneBase, List.getElem?_append_right (by omega), ha, Nat.add_sub_cancel_left, List.getElem?_append_left (by omega)]
    rfl

theorem zoneTable_last : (zoneTable s)[102]? = some (packWord (s.gain.mutes.toList.map flag ++ [flag s.duck.level])) := by
  have ha := zoneWords_length s.gain.zones.a
  have hb := zoneWords_length s.gain.zones.b
  unfold zoneTable
  rw [List.getElem?_append_right (by simp [ha, hb]), List.length_append, ha, hb]
  rfl

theorem zoneWords_curve (z : ZoneRecord) (j : Nat) (hj : j < 32) :
    (zoneWords z)[2 + j]? = (pairWords (z.curve.toList.map (int 11)))[j]? := by
  have curve := pairWords_length (n := 32) (int 11) z.curve
  unfold zoneWords
  rw [List.append_assoc, List.append_assoc, List.getElem?_append_right (by simp), List.getElem?_append_left (by rw [curve]; simpa using hj)]
  simp

theorem zoneWords_sdv (z : ZoneRecord) (j : Nat) (hj : j < 16) :
    (zoneWords z)[34]? = some (packWord [nat 5 z.sdv.length]) ∧ (zoneWords z)[35 + j]? = some (breakpointWord z.sdv[j]?) := by
  have curve := pairWords_length (n := 32) (int 11) z.curve
  unfold zoneWords
  constructor
  · rw [List.append_assoc, List.getElem?_append_right (by simp [curve]), List.length_append, curve]
    rfl
  · rw [List.getElem?_append_right (by simp [curve])]
    simp [curve, hj]

/-! ### Flags packed one to a bit -/

theorem fieldsWidth_flags (bs : List Bool) : fieldsWidth (bs.map flag) = bs.length := by
  induction bs with
  | nil => rfl
  | cons b bs ih => rw [List.map_cons, fieldsWidth_cons, ih, List.length_cons, flag_width, Nat.add_comm]

theorem flag_value (b : Bool) : (flag b).bits.toNat = b.toNat := by cases b <;> rfl

theorem fieldsValue_flags (bs : List Bool) (i : Nat) (hi : i < bs.length) :
    (fieldsValue (bs.map flag)).testBit (bs.length - 1 - i) = bs[i] := by
  induction bs generalizing i with
  | nil => simp at hi
  | cons b bs ih =>
    have small := fieldsValue_lt (bs.map flag)
    rw [fieldsWidth_flags] at small
    rw [List.map_cons, fieldsValue_cons, fieldsWidth_flags, flag_value, Nat.mul_comm,
      Nat.testBit_two_pow_mul_add _ small]
    cases i with
    | zero =>
      rw [if_neg (by simp)]
      cases b <;> simp
    | succ i =>
      simp only [List.length_cons] at hi
      rw [if_pos (by simp; omega), List.getElem_cons_succ, ← ih i (by omega)]
      congr 1
      simp; omega

theorem packWord_flags (bs : List Bool) (h : bs.length ≤ 32) (i : Nat) (hi : i < bs.length) :
    (packWord (bs.map flag)).getLsbD (31 - i) = bs[i] := by
  rw [← BitVec.testBit_toNat, packWord_toNat _ (by rw [fieldsWidth_flags]; exact h), fieldsWidth_flags, Nat.mul_comm,
    Nat.testBit_two_pow_mul, ← fieldsValue_flags bs i hi]
  rw [decide_eq_true (by omega), Bool.true_and]
  congr 1
  omega

theorem packWord_flags_low (bs : List Bool) {n : Nat} (h : bs.length + n = 32) :
    (packWord (bs.map flag)).extractLsb' 0 n = 0 := by
  apply BitVec.eq_of_toNat_eq
  rw [BitVec.extractLsb'_toNat, packWord_toNat _ (by rw [fieldsWidth_flags]; omega), fieldsWidth_flags,
    Nat.shiftRight_zero, ← h, Nat.add_sub_cancel_left, Nat.mul_mod_left]
  simp

/-! ### READ_TABLE -/

theorem exec_readTable {r : Route} (h : Ready s r) {sel part : BitVec 8} :
    (∀ ws, tableWords sel.toNat part.toNat s = some ws →
      exec (.readTable r sel part) s = .next (s.answering .ok 1 3 ws .nothing)) ∧
    (tableWords sel.toNat part.toNat s = none →
      exec (.readTable r sel part) s = .next (s.answering .badIndex 1 3 [] .nothing)) := by
  have row : exec (.readTable r sel part) s = .next (deliver r (.readTable sel part) s) := rfl
  constructor
  · intro ws e
    rw [row, deliver_ready h]
    simp only [takeCommand, takeReadTable, e]
    rfl
  · intro e
    rw [row, deliver_ready h]
    simp only [takeCommand, takeReadTable, e]
    rfl

theorem sectionTable_length (p : Fin 3) : (sectionTable p.val s).length = 192 := by
  have take : ((s.equaliser.sections.toList.drop (32 * p.val)).take 32).length = 32 := by simp; omega
  simp only [sectionTable, List.length_flatMap]
  have six : (fun r => (sectionWords r).length) = fun _ => 6 := rfl
  rw [six, List.map_const', take]
  rfl

theorem table_counts : (sourceTable s).length = 8 ∧ (channelTable s).length = 144 ∧ (programTable s).length = 192 ∧
    (cabinTable s).length = 33 ∧ (zoneTable s).length = 103 ∧ (switchTable s).length = 25 ∧ (slotTable s).length = 16 ∧
    (queueTable s).length = 1 + s.sched.queue.length ∧ (laneTable s).length = 78 := by
  have balance := pairWords_length (n := 16) (nat 10) s.gain.cabin.balanceCurve
  have fade := pairWords_length (n := 16) (nat 10) s.gain.cabin.fadeCurve
  have two (f : Option Fade) : (slotWords f).length = 2 := by cases f <;> rfl
  refine ⟨by simp [sourceTable], by simp [channelTable], by simp [programTable, programWords], ?_, ?_,
    by simp [switchTable], by simp [slotTable, two], by simp [queueTable, Nat.add_comm], by simp [laneTable, laneWords]⟩
  · simp [cabinTable, balance, fade]
  · simp [zoneTable, zoneWords_length]

theorem mutes_word : packWord (s.gain.mutes.toList.map flag ++ [flag s.duck.level]) =
    packWord ((s.gain.mutes.toList ++ [s.duck.level]).map flag) := by rw [List.map_append]; rfl

/-- Every table a selector and part picks, as it is found by them. -/
theorem tableWords_eq {a b : Nat} {t ws : List Word32} (h : tableWords a b s = some t) (e : tableWords a b s = some ws) :
    ws = t := Option.some.inj (e.symm.trans h)

/-- Settles O17: table by table, where a word stands and what it packs. -/
theorem readTable : Obligations.ReadTable := by
  refine ⟨fun s r sel part h => ?_, fun s ws e i => ?_, fun s ws e c => ?_, fun s p ws e j i hi => ?_,
    fun s ws e p c => ?_, fun s ws e => ?_, fun s ws e => ?_, fun s ws e => tableWords_eq rfl e ▸ ?_, fun s ws e => ?_,
    fun s ws e i => ?_, fun s ws e => ?_, fun s ws e => ?_⟩
  · obtain ⟨table, refused⟩ := exec_readTable h (sel := sel) (part := part)
    obtain ⟨sources, channels, programs, cabin, zones, switch, slots, queue, lanes⟩ := table_counts (s := s)
    dsimp only
    split
    · rename_i n count
      have answered {a b : Nat} {t : List Word32} {k : Nat} (ha : sel.toNat = a) (hb : part.toNat = b)
          (ht : tableWords a b s = some t) (length : t.length = k) (hk : some k = some n) :
          ∃ ws : List Word32, ws.length = n ∧ tableWords sel.toNat part.toNat s = some ws ∧
            exec (.readTable r sel part) s = .next (s.answering .ok 1 3 ws .nothing) := by
        have found : tableWords sel.toNat part.toNat s = some t := by rw [ha, hb, ht]
        exact ⟨t, length.trans (Option.some.inj hk), found, table t found⟩
      split at count
      · rename_i hs hp; exact answered hs hp rfl sources count
      · rename_i hs hp; exact answered hs hp rfl channels count
      · rename_i hs hp; exact answered hs hp rfl (sectionTable_length 0) count
      · rename_i hs hp; exact answered hs hp rfl (sectionTable_length 1) count
      · rename_i hs hp; exact answered hs hp rfl (sectionTable_length 2) count
      · rename_i hs hp; exact answered hs hp rfl programs count
      · rename_i hs hp; exact answered hs hp rfl cabin count
      · rename_i hs hp; exact answered hs hp rfl zones count
      · rename_i hs hp; exact answered hs hp rfl rfl count
      · rename_i hs hp; exact answered hs hp rfl switch count
      · rename_i hs hp; exact answered hs hp rfl slots count
      · rename_i hs hp; exact answered hs hp rfl queue count
      · rename_i hs hp; exact answered hs hp rfl lanes count
      · cases count
    · rename_i count
      cases e : tableWords sel.toNat part.toNat s with
      | none => exact refused e
      | some t =>
        unfold tableWords at e
        split at e
        case h_14 => cases e
        all_goals
          rename_i hs hp
          rw [hs, hp] at count
          cases count
  · obtain rfl := tableWords_eq rfl e
    simp only [sourceTable, List.getElem?_map, Vector.getElem?_toList]
    rw [Vector.getElem?_eq_getElem i.isLt, Option.map_some, sourceWord]
    cases s.sources[i.val] <;> rfl
  · obtain rfl := tableWords_eq rfl e
    dsimp only
    refine ⟨?_, ?_, fun j => ?_⟩
    · rw [← Nat.add_zero (6 * c.val), channelTable_at _ _ _ (by omega)]
      exact congrArg some (channelWord _)
    · rw [channelTable_at _ _ _ (by omega)]
      exact congrArg some (trimWord _ _)
    · rw [Nat.add_assoc, channelTable_at _ _ _ (by omega)]
      have tap : (channelWords s.channels[c])[2 + j.val]? = some (tapWord s.channels[c].taps[j.val]?) := by
        match j with
        | 0 | 1 | 2 | 3 => rfl
      rw [tap]
      cases s.channels[c].taps[j.val]? with
      | none => rfl
      | some t => exact congrArg some (tapWord_some t)
  · have table : tableWords 3 p.val s = some (sectionTable p.val s) := by
      match p with
      | 0 | 1 | 2 => rfl
    obtain rfl := tableWords_eq table e
    have word (k : Nat) (hk : k < 6) := sectionTable_at (s := s) p.val j.val k i hi j.isLt hk
    refine ⟨(word 0 (by omega)).trans (congrArg some (sectionWord _ _)),
      (word 1 (by omega)).trans (congrArg some (coeffWord_packed _)),
      (word 2 (by omega)).trans (congrArg some (coeffWord_packed _)),
      (word 3 (by omega)).trans (congrArg some (coeffWord_packed _)),
      (word 4 (by omega)).trans (congrArg some (coeffWord_packed _)),
      (word 5 (by omega)).trans (congrArg some (coeffWord_packed _))⟩
  · obtain rfl := tableWords_eq rfl e
    exact ⟨(programTable_at p c 0 (by omega)).trans (congrArg some (programWord_first _ _ _ _)),
      (programTable_at p c 1 (by omega)).trans (congrArg some (programWord_second _ _ _))⟩
  · obtain rfl := tableWords_eq rfl e
    have balance := pairWords_length (n := 16) (nat 10) s.gain.cabin.balanceCurve
    refine ⟨congrArg some (cabinWord _ _), fun j k l hk hl => ⟨?_, ?_⟩⟩
    · rw [Nat.add_comm 1]
      simp only [cabinTable, List.getElem?_cons_succ]
      rw [List.getElem?_append_left (by omega), pairWords_at (n := 16) (nat 10) _ _ k l hk hl]
      exact congrArg some (attenuationWord _ _)
    · have index : 17 + j.val = 16 + j.val + 1 := by omega
      rw [index]
      simp only [cabinTable, List.getElem?_cons_succ]
      rw [List.getElem?_append_right (by omega), balance, Nat.add_sub_cancel_left,
        pairWords_at (n := 16) (nat 10) _ _ k l hk hl]
      exact congrArg some (attenuationWord _ _)
  · obtain rfl := tableWords_eq rfl e
    refine ⟨fun z => ?_, packWord (s.gain.mutes.toList.map flag ++ [flag s.duck.level]), zoneTable_last, fun c => ?_, ?_, ?_⟩
    · have base : (if z = .a then 0 else 51) = zoneBase z := by cases z <;> rfl
      dsimp only
      rw [base]
      have at_ (k : Nat) (hk : k < 51) := zoneTable_at (s := s) z k hk
      generalize s.gain.zones.get z = y at at_ ⊢
      refine ⟨(at_ 0 (by omega)).trans (congrArg some (optionsWord y)), (at_ 1 (by omega)).trans (congrArg some (depthWord _ _)),
        fun j k l hk hl => ?_, ?_, fun j => ?_⟩
      · rw [Nat.add_assoc, at_ _ (by omega), zoneWords_curve y _ j.isLt, pairWords_at (n := 32) (int 11) _ _ k l hk hl]
        exact congrArg some (gainWord _ _)
      · rw [at_ _ (by omega), (zoneWords_sdv y 0 (by omega)).1]
        exact congrArg some (countWord _)
      · rw [Nat.add_assoc, at_ _ (by omega), (zoneWords_sdv y _ j.isLt).2]
        cases y.sdv[j.val]? with
        | none => rfl
        | some p => exact congrArg some (breakpointWord_some p)
    all_goals rw [mutes_word]
    · rw [packWord_flags _ (by simp) c.val (by rw [List.length_append, Vector.length_toList]; omega),
        List.getElem_append_left (by simp)]
      simp
    · exact (packWord_flags (s.gain.mutes.toList ++ [s.duck.level]) (by simp) 24 (by simp)).trans (by simp)
    · exact packWord_flags_low (s.gain.mutes.toList ++ [s.duck.level]) (by simp)
  · simp only [speedTable, trackerWord, counterWord, policyWord]
  · obtain rfl := tableWords_eq rfl e
    have word (c : Chan) : (switchTable s)[c.val]? = some (switchWord s s.sched.switch[c]) := by
      unfold switchTable
      rw [List.getElem?_append_left (by simp)]
      simp
    refine ⟨fun c p q i f => ⟨fun h => ?_, fun h => ?_, fun h hf => ?_⟩, ?_⟩
    · rw [word, h, steadyWord]
    · rw [word, h, queuedWord]
    · rw [word, h, fadingWord hf]
    · unfold switchTable
      rw [List.getElem?_append_right (by simp)]
      simp only [List.length_map, Vector.length_toList, Nat.sub_self]
      exact congrArg some (settledWord _ _)
  · obtain rfl := tableWords_eq rfl e
    refine ⟨fun free => ?_, fun f hf => ?_⟩
    · have first := slotTable_at (s := s) i 0 (by omega)
      have second := slotTable_at (s := s) i 1 (by omega)
      rw [free] at first second
      exact ⟨first, second⟩
    · have first := slotTable_at (s := s) i 0 (by omega)
      have second := slotTable_at (s := s) i 1 (by omega)
      rw [hf] at first second
      exact ⟨first.trans (congrArg some (slotWord f)), second.trans (congrArg some (progressWord _ _))⟩
  · obtain rfl := tableWords_eq rfl e
    refine ⟨congrArg some (countWord _), fun j c p q hj hc => ?_⟩
    have page : pendingPage s c = q.val := by unfold pendingPage; rw [hc]
    simp only [queueTable, List.getElem?_cons_succ, List.getElem?_map, hj, Option.map_some, page, waitingWord]
  · obtain rfl := tableWords_eq rfl e
    dsimp only
    refine ⟨fun c => ⟨(laneTable_at c 0 (by omega)).trans (congrArg some (gainWord _ _)),
      (laneTable_at c 1 (by omega)).trans (congrArg some (speedLaneWord _ _)),
      (laneTable_at c 2 (by omega)).trans (congrArg some (gainWord _ _))⟩,
      (laneTable_tail 0).trans (congrArg some (gainWord _ _)), (laneTable_tail 1).trans (congrArg some (gainWord _ _)),
      fun l n hl => ?_⟩
    have index : 74 + n = 72 + (2 + n) := by omega
    rw [index, laneTable_tail]
    match n with
    | 0 | 1 | 2 | 3 => obtain rfl := Option.some.inj hl; exact congrArg some (settingsWord_eq _)
    | n + 4 => cases hl

end Sys2Proof.Machine
end

section
/-! The commands of the gain plan that hand on no page requests, and the targets they form (R37 to R50, R73 to R77). -/

namespace Sys2Proof.Machine

variable {s : State}

/-! ### Recomputed targets as whole vectors -/

/-- Forming the entry of one channel anew sets it. -/
theorem ofFn_only {α : Type} (c : Chan) (f : Chan → α) (old : Vector α 24) :
    (Vector.ofFn fun d : Chan => if only c d then f d else old[d]) = old.set c (f c) := by
  ext i hi
  by_cases e : c.val = i
  · have e : c = ⟨i, hi⟩ := Fin.ext e
    subst e
    simp [only]
  · have ne : (⟨i, hi⟩ : Chan) ≠ c := fun h => e (congrArg Fin.val h.symm)
    simp [only, e, ne]

/-- Forming the entries of a zone's channels anew, the zone's record being replaced. -/
theorem ofFn_inZone (z : Zone) (zone : ZoneRecord) (f : Chan → ZoneRecord → Int) (old : Vector Int 24) :
    (Vector.ofFn fun c : Chan => if inZone s z c then f c ((s.gain.zones.set z zone).get s.channels[c].zone)
      else old[c]) = Vector.ofFn fun c : Chan => if s.channels[c].zone = z then f c zone else old[c] := by
  congr 1
  funext c
  by_cases e : s.channels[c].zone = z
  · simp only [inZone, e, beq_self_eq_true, if_true, PerZone.get_set]
  · have off : inZone s z c = false := by simpa [inZone] using e
    rw [off, if_neg e, if_neg (by simp)]

section

variable {t : State} {z : Zone} {zone : ZoneRecord}

theorem userTargets_zone (zones : t.gain.zones = s.gain.zones.set z zone) (channels : t.channels = s.channels)
    (cabin : t.gain.cabin = s.gain.cabin) (old : t.gain.targets.user = s.gain.targets.user) :
    userTargets (inZone s z) t =
      zoneTargets z zone s.channels (fun y c => userTarget s.gain.cabin y c) s.gain.targets.user := by
  unfold userTargets
  rw [zones, channels, cabin, old]
  exact ofFn_inZone z zone (fun c y => userTarget s.gain.cabin y s.channels[c]) _

theorem speedTargets_zone (zones : t.gain.zones = s.gain.zones.set z zone) (channels : t.channels = s.channels)
    (old : t.gain.targets.speed = s.gain.targets.speed) :
    speedTargets (inZone s z) t = zoneTargets z zone s.channels speedTarget s.gain.targets.speed := by
  unfold speedTargets
  rw [zones, channels, old]
  exact ofFn_inZone z zone (fun c y => speedTarget y s.channels[c]) _

theorem muteTargets_zone (zones : t.gain.zones = s.gain.zones.set z zone) (channels : t.channels = s.channels)
    (flags : t.gain.mutes = s.gain.mutes) (old : t.gain.targets.mute = s.gain.targets.mute) :
    muteTargets (inZone s z) t = Vector.ofFn fun c : Chan =>
      if s.channels[c].zone = z then muteTarget s.gain.mutes[c] zone else s.gain.targets.mute[c] := by
  unfold muteTargets
  rw [zones, channels, flags, old]
  exact ofFn_inZone z zone (fun c y => muteTarget s.gain.mutes[c] y) _

end

/-- A zone's record replaced, and the user and speed targets of its channels formed anew (R39, R41). -/
theorem recompute_zone (z : Zone) (zone : ZoneRecord) :
    recomputeSpeed (inZone (setZone z zone s) z) (recomputeUser (inZone (setZone z zone s) z) (setZone z zone s)) =
      { s with gain.zones := s.gain.zones.set z zone,
               gain.targets.user :=
                 zoneTargets z zone s.channels (fun y c => userTarget s.gain.cabin y c) s.gain.targets.user,
               gain.targets.speed := zoneTargets z zone s.channels speedTarget s.gain.targets.speed } := by
  have same : inZone (setZone z zone s) z = inZone s z := rfl
  unfold recomputeSpeed
  rw [same, speedTargets_zone (t := recomputeUser (inZone s z) (setZone z zone s)) (zone := zone) (by simp)
    (by simp) (by simp)]
  unfold recomputeUser
  rw [userTargets_zone (t := setZone z zone s) (zone := zone) rfl rfl rfl rfl]
  rfl

/-! ### Cabin curves, trim and mute -/

/-- Settles O20: each curve load stores the clamped entries and forms every user target anew. -/
theorem loadAttenuationCurves : Obligations.LoadAttenuationCurves := by
  intro s entries
  dsimp only
  rw [← clampedIf_eq (anyOutside_eq (lo := 0) (hi := 768) (by decide) entries)]
  exact ⟨completes_of_take (.loadBalanceCurve entries) (fun _ => rfl) rfl fun _ =>
      congrArg (done _) (recomputeUser_allChannels _),
    completes_of_take (.loadFadeCurve entries) (fun _ => rfl) rfl fun _ =>
      congrArg (done _) (recomputeUser_allChannels _)⟩

theorem toChannel_none {i : BitVec 8} (h : 24 ≤ i.toNat) : toChannel i = none := dif_neg (by omega)

theorem toChannel_some {i : BitVec 8} {c : Chan} (h : i.toNat = c.val) : toChannel i = some c := by
  have small : i.toNat < 24 := by omega
  unfold toChannel
  rw [dif_pos small]
  exact congrArg some (Fin.ext h)

theorem recomputeUser_only (c : Chan) (r : ChannelRecord) : recomputeUser (only c) (setRecord c r s) =
    { s with channels := s.channels.set c r,
             gain.targets.user :=
               s.gain.targets.user.set c (userTarget s.gain.cabin (s.gain.zones.get r.zone) r) } := by
  have formed := ofFn_only c (fun d => userTarget s.gain.cabin (s.gain.zones.get (s.channels.set c r)[d].zone)
    (s.channels.set c r)[d]) s.gain.targets.user
  have own : (s.channels.set c r)[c] = r := by simp
  rw [own] at formed
  rw [← formed]
  rfl

/-- Settles O21: one channel's target, the mute targets of a zone's channels, or a zone's duck target. -/
theorem trimMuteAndDuck : Obligations.TrimMuteAndDuck := by
  refine ⟨fun s i trim mute => ⟨fun none => ?_, fun c h => ?_⟩, fun s v => ⟨?_, ?_⟩⟩
  · constructor
    · refine completes_of_take (.setChannelTrim i trim) (fun _ => rfl) rfl fun _ => ?_
      simp only [takeCommand, takeSetChannelTrim, toChannel_none none]
    · refine completes_of_take (.setChannelMute i mute) (fun _ => rfl) rfl fun _ => ?_
      simp only [takeCommand, takeSetChannelMute, toChannel_none none]
  · constructor
    · refine completes_of_take (.setChannelTrim i trim) (fun _ => rfl) rfl fun _ => ?_
      simp only [takeCommand, takeSetChannelTrim, toChannel_some h]
      rw [recomputeUser_only, clampedIf_eq (clamp_changes (by decide))]
      rfl
    · refine completes_of_take (.setChannelMute i mute) (fun _ => rfl) rfl fun _ => ?_
      have formed := ofFn_only c (fun d => muteTarget (s.gain.mutes.set c (mute != 0))[d]
        (s.gain.zones.get s.channels[d].zone)) s.gain.targets.mute
      have own : (s.gain.mutes.set c (mute != 0))[c] = (mute != 0) := by simp
      rw [own] at formed
      simp only [takeCommand, takeSetChannelMute, toChannel_some h]
      rw [← formed]
      rfl
  · refine completes_of_take (.setZoneMute v) (fun _ => rfl) rfl fun z => ?_
    have formed := muteTargets_zone (t := setZone z { s.gain.zones.get z with mute := v != 0 } s)
      (zone := { s.gain.zones.get z with mute := v != 0 }) rfl rfl rfl rfl
    simp only [muteTarget, Bool.or_eq_true, bne_iff_ne] at formed
    have same : inZone (setZone z { s.gain.zones.get z with mute := v != 0 } s) z = inZone s z := rfl
    refine congrArg (done _) ?_
    dsimp only
    unfold recomputeMute
    rw [same, formed]
    rfl
  · refine completes_of_take (.setDuck v) (fun _ => rfl) rfl fun z => ?_
    have formed : duckTarget { s.gain.zones.get z with commandDuck := v != 0 } s.duck.level =
        if v ≠ 0 ∨ (s.duck.level = true ∧ (s.gain.zones.get z).mask = true) then -((s.gain.zones.get z).depth : Int)
        else 0 := by
      simp [duckTarget, duckActive]
    refine congrArg (done _) ?_
    dsimp only
    rw [← formed]
    unfold recomputeDuck setZone
    simp only [PerZone.get_set, if_true]

/-- Settles O22: each command replaces the zone's record and forms the targets of its channels anew. -/
theorem volumeCommands : Obligations.VolumeCommands := by
  intro s step delta entries
  dsimp only
  refine ⟨⟨⟨min 63 step.toNat, by omega⟩, rfl, ?_⟩, ⟨fun z => clampStep (((s.gain.zones.get z).step.val : Int) +
    max (-63) (min 63 delta.toInt)), fun z => ?_, ?_⟩, ?_⟩
  · refine completes_of_take (.setVolume step) (fun _ => rfl) rfl fun z => ?_
    simp only [takeCommand, takeSetVolume]
    rw [← recompute_zone]
    split
    · rename_i small
      have same : (⟨min 63 step.toNat, by omega⟩ : Fin 64) = ⟨step.toNat, small⟩ := Fin.ext (by simp; omega)
      rw [if_pos (by omega), same]
      rfl
    · rename_i large
      have same : (⟨min 63 step.toNat, by omega⟩ : Fin 64) = 63 := Fin.ext (by simp; omega)
      rw [if_neg (by omega), same]
      rfl
  · simp only [clampStep, clamp]; omega
  · refine completes_of_take (.stepVolume delta) (fun _ => rfl) rfl fun z => ?_
    rw [← recompute_zone]
    simp only [takeCommand, takeStepVolume]
    rw [clampedIf_eq (p := -63 ≤ delta.toInt ∧ delta.toInt ≤ 63 ∧ 0 ≤ ((s.gain.zones.get z).step.val : Int) + delta.toInt ∧
      ((s.gain.zones.get z).step.val : Int) + delta.toInt ≤ 63)]
    · rfl
    · simp only [clamp, Bool.or_eq_true, bne_iff_ne]; omega
  · refine completes_of_take (.loadVolumeCurve entries) (fun _ => rfl) rfl fun z => ?_
    rw [← recompute_zone, ← clampedIf_eq (anyOutside_eq (lo := -768) (hi := 96) (by decide) entries)]
    rfl

/-! ### The targets -/

theorem fullCut_iff (cab : Cabin) (r : ChannelRecord) : fullCut cab r = true ↔
    (cab.balance ≠ 0 ∧ curveEntry cab.balanceCurve cab.balance = 768 ∧ balanceDistance cab.balance r.x = 8) ∨
    (cab.fade ≠ 0 ∧ curveEntry cab.fadeCurve cab.fade = 768 ∧ fadeDistance cab.fade r.y = 15) := by
  simp [fullCut, and_assoc]

/-- Settles O25: a full cut, or the clamped sum. -/
theorem userTarget_cuts : Obligations.UserTarget := by
  intro cab z r
  have cut (h : fullCut cab r = true) : userTarget cab z r = -768 := by rw [userTarget, if_pos h]
  refine ⟨?_, ?_, fun k hk full hd => cut ?_, fun k hk full hd => cut ?_, fun nobal nofade hb hf => ?_⟩
  · unfold userTarget clamp; split <;> omega
  · unfold userTarget clamp; split <;> omega
  · exact (fullCut_iff cab r).mpr (.inl ⟨by omega, by rw [curveEntry_of_natAbs _ hk, full]; rfl, hd⟩)
  · exact (fullCut_iff cab r).mpr (.inr ⟨by omega, by rw [curveEntry_of_natAbs _ hk, full]; rfl, hd⟩)
  · have uncut : ¬ fullCut cab r = true := by
      rw [fullCut_iff]
      rintro (⟨ne, full, hd⟩ | ⟨ne, full, hd⟩)
      · obtain ⟨k, hk⟩ := exists_entry ne (by omega) (by omega)
        rw [curveEntry_of_natAbs _ hk] at full
        obtain h | h | h := nobal
        · exact ne h
        · exact h hd
        · exact h k hk (by omega)
      · obtain ⟨k, hk⟩ := exists_entry ne (by omega) (by omega)
        rw [curveEntry_of_natAbs _ hk] at full
        obtain h | h | h := nofade
        · exact ne h
        · exact h hd
        · exact h k hk (by omega)
    rw [userTarget, if_neg uncut]
    rfl

/-- Settles O26: the weighted boost is a share of the boost, and the ceiling bounds a rise. -/
theorem speedTargetUnderCeiling : Obligations.SpeedTargetUnderCeiling := by
  intro z r lo hi weight
  have product : -96 * 16 ≤ z.boost * (r.weight : Int) ∧ z.boost * (r.weight : Int) ≤ 96 * 16 := by
    constructor <;> nlinarith
  have target : speedTarget z r = clamp (-96) 96 (if 0 < (z.boost * (r.weight : Int) + 8) / 16 then
      min ((z.boost * (r.weight : Int) + 8) / 16) (max 0 (z.ceiling - z.curve[z.step]))
    else (z.boost * (r.weight : Int) + 8) / 16) := rfl
  dsimp only
  have full (h : r.weight = 16) : z.boost * (r.weight : Int) = z.boost * 16 := by rw [h]; rfl
  have silent (h : r.weight = 0) : z.boost * (r.weight : Int) = 0 := by rw [h]; simp
  unfold clamp at target
  generalize z.boost * (r.weight : Int) = p at *
  generalize z.curve[z.step] = v at *
  rw [target]
  refine ⟨by omega, by omega, fun h => ?_, fun h => ?_, fun h => ?_, fun h => ?_, fun h g => ?_, fun h => ?_⟩
  · have := full h; omega
  · have := silent h; split <;> omega
  · rw [if_neg (by omega)]; omega
  · rw [if_pos h]; omega
  · rw [if_pos h]; omega
  · split at h <;> split <;> omega

end Sys2Proof.Machine
end

section
/-! Reading the speed-dependent volume curve (R102, R103, R105). -/

namespace Sys2Proof.Machine

/-- The speeds rise strictly along the list, as a statement about every two breakpoints (R99). -/
theorem speedsRise_iff (l : List Breakpoint) : speedsRise l = true ↔ l.Pairwise fun p q => p.speed < q.speed := by
  induction l with
  | nil => simp [speedsRise]
  | cons p l ih =>
    cases l with
    | nil => simp [speedsRise]
    | cons q rest =>
      rw [speedsRise, Bool.and_eq_true, ih, decide_eq_true_eq]
      constructor
      · rintro ⟨hpq, rises⟩
        refine List.pairwise_cons.mpr ⟨fun b hb => ?_, rises⟩
        obtain rfl | hb := List.mem_cons.mp hb
        · exact hpq
        · exact hpq.trans ((List.pairwise_cons.mp rises).1 b hb)
      · intro all
        obtain ⟨below, rises⟩ := List.pairwise_cons.mp all
        exact ⟨below q (List.mem_cons_self ..), rises⟩

/-- Up to breakpoint `p`, whose speed is reached, every speed is; the next one's is not. -/
theorem reached_length {before after : List Breakpoint} {p : Breakpoint} {v : Nat}
    (rises : speedsRise (before ++ p :: after) = true) (hp : p.speed ≤ v) (next : ∀ c ∈ after.head?, v < c.speed) :
    ((before ++ p :: after).takeWhile fun b => b.speed ≤ v).length = before.length + 1 := by
  have below (b : Breakpoint) (hb : b ∈ before) : b.speed ≤ v := by
    have := (List.pairwise_append.mp ((speedsRise_iff _).mp rises)).2.2 b hb p (List.mem_cons_self ..)
    omega
  rw [List.takeWhile_append_of_pos (by simpa using below), List.takeWhile_cons, if_pos (by simpa using hp)]
  have stops : (after.takeWhile fun b => decide (b.speed ≤ v)) = [] := by
    cases after with
    | nil => rfl
    | cons c rest =>
      have := next c rfl
      rw [List.takeWhile_cons, if_neg (by simp; omega)]
  rw [stops]
  simp

theorem sdvBand_reached {before after : List Breakpoint} {p : Breakpoint} {v : Nat}
    (rises : speedsRise (before ++ p :: after) = true) (hp : p.speed ≤ v) (next : ∀ c ∈ after.head?, v < c.speed) :
    sdvBand (before ++ p :: after) v = before.length := by
  unfold sdvBand
  rw [reached_length rises hp next, Nat.add_sub_cancel]

theorem sdvBand_below {p : Breakpoint} {rest : List Breakpoint} {v : Nat} (h : v < p.speed) :
    sdvBand (p :: rest) v = 0 := by
  unfold sdvBand
  rw [List.takeWhile_cons, if_neg (by simp; omega)]
  rfl

/-- A point `n` of `d` along a segment, rounded down, lies between its ends. -/
theorem segment_between {a b n d : Int} (hn : 0 ≤ n) (hnd : n < d) :
    min a b ≤ a + (b - a) * n / d ∧ a + (b - a) * n / d ≤ max a b := by
  have hd : 0 < d := by omega
  obtain up | down := le_total a b
  · have lo : 0 ≤ (b - a) * n / d := Int.ediv_nonneg (mul_nonneg (by omega) hn) (by omega)
    have hi : (b - a) * n / d ≤ b - a := by
      refine Int.ediv_le_of_le_mul hd ?_
      nlinarith
    omega
  · have hi : (b - a) * n / d ≤ 0 := by
      refine Int.ediv_le_of_le_mul hd ?_
      nlinarith
    have lo : b - a ≤ (b - a) * n / d := by
      refine Int.le_ediv_of_mul_le hd ?_
      nlinarith
    omega

/-- Settles O27: the band is the last breakpoint whose speed is reached, and the boost is read from there. -/
theorem sdvCurveReading : Obligations.SdvCurveReading := by
  refine ⟨fun p rest v h _ => ⟨sdvBand_below h, ?_⟩, fun before after p q v rises hp hq => ?_,
    fun before p v rises hp => ?_, fun z off => by rw [evalRequested, if_neg (by simp [off])], fun z b on at_ => ?_,
    fun z v before b after curve rises on first next => ?_⟩
  · unfold sdvBoost
    rw [sdvBand_below h]
    cases rest with
    | nil => rfl
    | cons q rest => exact if_pos h
  · have band := sdvBand_reached rises hp (by intro c hc; obtain rfl := Option.some.inj hc; exact hq)
    have boost : sdvBoost (before ++ p :: q :: after) v =
        p.boost + (q.boost - p.boost) * ((v : Int) - (p.speed : Int)) / ((q.speed : Int) - (p.speed : Int)) := by
      unfold sdvBoost
      rw [band, List.drop_left]
      exact if_neg (by omega)
    obtain ⟨lo, hi⟩ := segment_between (a := p.boost) (b := q.boost) (n := (v : Int) - p.speed)
      (d := (q.speed : Int) - p.speed) (by omega) (by omega)
    rw [boost]
    refine ⟨band, rfl, lo, hi, fun h => ?_⟩
    rw [h]; simp
  · have band := sdvBand_reached rises hp (by intro c hc; cases hc)
    refine ⟨band, ?_⟩
    unfold sdvBoost
    rw [band, List.drop_left]
  · unfold evalRequested
    rw [if_pos on, at_, Option.bind_some]
    constructor
    · intro q hq; rw [hq]
    · intro none; rw [none]
  · have band : sdvBand z.sdv v = before.length := by
      rw [curve] at rises ⊢
      by_cases hb : b.speed ≤ v
      · exact sdvBand_reached rises hb next
      · obtain rfl : before = [] := first.resolve_right hb
        exact sdvBand_below (by omega)
    unfold ZoneRecord.atSpeed evalRequested
    dsimp only
    rw [if_pos on, band, curve]
    rw [List.getElem?_append_right (le_refl _), Nat.sub_self]
    simp only [List.getElem?_cons_zero, Option.bind_some]
    cases b.page <;> rfl

end Sys2Proof.Machine
end

section
/-! The Ramp Engine, the Speed Tracker's judging and the Duck Line Input (R59 to R65, R79 to R91). -/

namespace Sys2Proof.Machine

variable {s : State}

/-! ### SET_RAMP -/

/-- The pace SET_RAMP stores in a lane: a second step in the lanes that have one only (R65). -/
def paced (l : Lane) (p : BitVec 10) (a b : BitVec 8) (old : LaneSettings) : LaneSettings :=
  { old with period := min 255 p.toNat, first := clampNat 1 96 a.toNat,
             second := if hasRelease l then clampNat 1 96 b.toNat else old.second }

theorem setRamp_completes {i : BitVec 4} {l : Lane} (h : toLane i = some l) (p : BitVec 10) (a b : BitVec 8) :
    Completes (fun r => .setRamp r i p a b) 4 1 s
      (fun _ => if p.toNat ≤ 255 ∧ 1 ≤ a.toNat ∧ a.toNat ≤ 96 ∧ (hasRelease l = true → 1 ≤ b.toNat ∧ b.toNat ≤ 96)
        then .ok else .clamped)
      (fun _ => setLane l (paced l p a b (s.ramp.lanes.get l)) s) := by
  refine completes_of_take (.setRamp i p a b) (fun _ => rfl) rfl fun _ => ?_
  have outside : (min 255 p.toNat != p.toNat || clampNat 1 96 a.toNat != a.toNat ||
      (hasRelease l && clampNat 1 96 b.toNat != b.toNat)) = true ↔
      ¬ (p.toNat ≤ 255 ∧ 1 ≤ a.toNat ∧ a.toNat ≤ 96 ∧ (hasRelease l = true → 1 ≤ b.toNat ∧ b.toNat ≤ 96)) := by
    rw [Bool.or_eq_true, Bool.or_eq_true, Bool.and_eq_true, clampNat_changes (by decide), clampNat_changes (by decide)]
    cases hasRelease l <;> simp <;> omega
  simp only [takeCommand, takeSetRamp, h]
  rw [clampedIf_eq outside]
  rfl

/-- Settles O28: lane by lane. -/
theorem setRamp : Obligations.SetRamp := by
  intro s i p a b
  dsimp only
  have lane {l : Lane} (h : toLane i = some l) := setRamp_completes (s := s) h p a b
  refine ⟨fun h => ?_, fun h => ?_, fun h => ?_, fun h => ?_, fun h => ?_⟩
  · refine completes_of_take (.setRamp i p a b) (fun _ => rfl) rfl fun _ => ?_
    have none : toLane i = none := by
      unfold toLane
      split
      case h_5 => rfl
      all_goals omega
    simp only [takeCommand, takeSetRamp, none]
  · have user := lane (l := .user) (by unfold toLane; rw [h]; rfl)
    simp only [hasRelease, Bool.false_eq_true, false_implies, and_true] at user
    exact user
  · have speed := lane (l := .speed) (by unfold toLane; rw [h]; rfl)
    simp only [hasRelease, Bool.false_eq_true, false_implies, and_true] at speed
    exact speed
  · have mute := lane (l := .mute) (by unfold toLane; rw [h]; rfl)
    simp only [hasRelease, true_implies] at mute
    exact mute
  · have duck := lane (l := .duck) (by unfold toLane; rw [h]; rfl)
    simp only [hasRelease, true_implies] at duck
    exact duck

/-! ### A lane tick -/

/-- Settles O29: the tick of each lane, and nothing where it is not due. -/
theorem laneTick : Obligations.LaneTick := by
  intro s
  dsimp only
  have row (l : Lane) : exec (.laneTick l) s =
      .next (if listening s ∧ (s.ramp.lanes.get l).count = 1 then tick l s else s) := rfl
  refine ⟨fun l idle => ?_, fun pin lock => ?_⟩
  · rw [row, if_neg]
    rintro ⟨hears, due⟩
    obtain ⟨pin, lock⟩ := listening_iff.mp hears
    obtain h | h | h := idle
    · rw [pin] at h; cases h
    · exact h lock
    · exact h due
  · have hears : listening s = true := listening_iff.mpr ⟨pin, lock⟩
    refine ⟨fun due => ?_, fun due => ?_, fun due => ?_, fun due => ?_⟩
    · rw [row, if_pos ⟨hears, due⟩]; rfl
    · rw [row, if_pos ⟨hears, due⟩]; rfl
    · rw [row, if_pos ⟨hears, due⟩]; rfl
    · rw [row, if_pos ⟨hears, due⟩]; rfl

/-! ### Judging a reading -/

theorem speedGap_le {a b j : Nat} : speedGap a b ≤ j ↔ a ≤ b + j ∧ b ≤ a + j := by
  unfold speedGap; omega

/-- Settles O30: the cases of the tracker's state, and what accepting a reading stores. -/
theorem speedJudging : Obligations.SpeedJudging := by
  intro t m _
  dsimp only
  refine ⟨fun stale => ?_, fun fresh alone => ⟨fun near => ?_, fun jumps far => ?_⟩,
    fun k fresh held => ⟨fun near => ?_, fun jumps far farther => ?_⟩⟩
  · have accepted : judge m t = accept m t := by unfold judge; rw [stale]; rfl
    rw [accepted]
    refine ⟨rfl, rfl, rfl, rfl, ?_, ?_, ?_, rfl, rfl, rfl, rfl⟩ <;> simp only [accept] <;> omega
  · have accepted : judge m t = accept m t := by
      unfold judge
      simp only [fresh, alone, speedGap_le, Bool.not_true, Bool.false_eq_true, if_false]
      exact if_pos near
    rw [accepted]
    refine ⟨rfl, rfl, rfl, rfl, ?_, ?_, ?_, rfl, rfl, rfl, rfl⟩ <;> simp only [accept] <;> omega
  · unfold judge
    simp only [fresh, alone, speedGap_le, Bool.not_true, Bool.false_eq_true, if_false]
    exact if_neg (not_or.mpr ⟨jumps, far⟩)
  · have accepted : judge m t = accept m t := by
      unfold judge
      simp only [fresh, held, speedGap_le, Bool.not_true, Bool.false_eq_true, if_false]
      exact if_pos near
    rw [accepted]
    refine ⟨rfl, rfl, rfl, rfl, ?_, ?_, ?_, rfl, rfl, rfl, rfl⟩ <;> simp only [accept] <;> omega
  · unfold judge
    simp only [fresh, held, speedGap_le, Bool.not_true, Bool.false_eq_true, if_false]
    exact if_neg (not_or.mpr ⟨jumps, not_or.mpr ⟨far, farther⟩⟩)

/-! ### The Duck Line Input -/

theorem notify_duckLine (s : State) : notify .duckLine s =
    { s with notices.pending.duckLine := s.notices.pending.duckLine || s.notices.enabled.duckLine } := by
  unfold notify
  cases h : s.notices.enabled.duckLine <;> simp [hasKind, addKind, h]

/-- A sample that leaves the deglitched level, and one that changes it (R81, R82). -/
theorem takeDuckSample_keeps (h : s.pins.duck = s.duck.level ∨ s.pins.duck ≠ s.duck.previous) : takeDuckSample s =
    { s with duck := { count := 48, previous := s.pins.duck, level := s.duck.level } } := by
  have change : (s.pins.duck != s.duck.level && s.pins.duck == s.duck.previous) = false := by
    obtain h | h := h <;> simp [h]
  unfold takeDuckSample
  simp only [change, Bool.false_eq_true, if_false]

theorem takeDuckSample_changes (h : s.pins.duck ≠ s.duck.level) (g : s.pins.duck = s.duck.previous) : takeDuckSample s =
    { s with duck := { count := 48, previous := s.pins.duck, level := s.pins.duck },
             gain.targets.duck := { a := duckTarget s.gain.zones.a s.pins.duck, b := duckTarget s.gain.zones.b s.pins.duck },
             notices.pending.duckLine := s.notices.pending.duckLine || s.notices.enabled.duckLine } := by
  have change : (s.pins.duck != s.duck.level && s.pins.duck == s.duck.previous) = true := by
    rw [← g]; simp [h]
  unfold takeDuckSample
  simp only [change, if_true]
  rw [notify_duckLine]
  rfl

/-- Settles O34: a due sample keeps or changes the level; another row takes the pin's level alone. -/
theorem duckSample : Obligations.DuckSample := by
  intro s pin
  have row : exec (.duckSample pin) s =
      .next (if listening s ∧ s.duck.count = 1 then takeDuckSample (setDuckPin pin s) else setDuckPin pin s) := rfl
  refine ⟨fun idle => ?_, fun hp hl due => ⟨fun keeps => ?_, fun ne eq => ?_⟩⟩
  · rw [row, if_neg]
    · rfl
    · rintro ⟨hears, due⟩
      obtain ⟨hp, hl⟩ := listening_iff.mp hears
      obtain h | h | h := idle
      · rw [hp] at h; cases h
      · exact h hl
      · exact h due
  · rw [row, if_pos ⟨listening_iff.mpr ⟨hp, hl⟩, due⟩, takeDuckSample_keeps (s := setDuckPin pin s) keeps]
    rfl
  · rw [row, if_pos ⟨listening_iff.mpr ⟨hp, hl⟩, due⟩, takeDuckSample_changes (s := setDuckPin pin s) ne eq]
    rfl

end Sys2Proof.Machine
end

section
/-! The commands of routing, the Equaliser's library and the notices (R18 to R24, R114 to R119, R162 to R168). -/

namespace Sys2Proof.Machine

variable {s : State}

/-! ### LOAD_SOURCE -/

theorem slotWritten_iff {skip : Chan → Bool} {k : AudioSlot} : slotWritten s skip k = true ↔
    ∃ c : Chan, skip c = false ∧ s.channels[c].out = some k := by
  simp [slotWritten]

theorem slotRead_iff {k : AudioSlot} : slotRead s k = true ↔ ∃ i : SourceId, s.sources[i] = some k := by
  unfold slotRead
  rw [List.any_eq_true]
  constructor
  · rintro ⟨r, hr, e⟩
    rw [Vector.mem_toList_iff] at hr
    obtain ⟨i, hi, rfl⟩ := Vector.mem_iff_getElem.mp hr
    exact ⟨⟨i, hi⟩, by simpa using e⟩
  · rintro ⟨i, e⟩
    exact ⟨s.sources[i], by simp, by simpa using e⟩

/-- Settles O35: the checks in their order, then the store. -/
theorem loadSource : Obligations.LoadSource := by
  intro s i present k
  dsimp only
  refine ⟨fun high => ?_, fun low here used => ?_, fun n hn free => ?_⟩
  · refine completes_of_take (.loadSource i present k) (fun _ => rfl) rfl fun _ => ?_
    simp only [takeCommand, takeLoadSource]
    rw [dif_neg (by omega)]
  · refine completes_of_take (.loadSource i present k) (fun _ => rfl) rfl fun _ => ?_
    obtain ⟨c, hc⟩ := used
    have written : slotWritten s (fun _ => false) k.toFin = true := slotWritten_iff.mpr ⟨c, rfl, hc⟩
    simp only [takeCommand, takeLoadSource]
    rw [dif_pos low, if_pos]
    simp [optSlot, here, written]
  · refine completes_of_take (.loadSource i present k) (fun _ => rfl) rfl fun _ => ?_
    have unwritten : ¬ (optSlot present k).any (slotWritten s fun _ => false) = true := by
      unfold optSlot
      cases present with
      | false => simp
      | true =>
        simp only [if_true, Option.any_some, slotWritten_iff]
        rintro ⟨c, -, hc⟩
        exact free rfl c hc
    have low : i.toNat < 8 := by omega
    have same : (⟨i.toNat, low⟩ : SourceId) = n := Fin.ext hn
    simp only [takeCommand, takeLoadSource]
    rw [dif_pos low, if_neg unwritten, same]
    rfl

/-! ### LOAD_CHANNEL -/

theorem toTaps_of_forall {taps : List TapWord} {ts : List Tap} (h : List.Forall₂ (fun (t : TapWord) (u : Tap) =>
    t.source.toNat = u.source.val ∧ u.gain = max (-768) (min 0 t.gain.toInt) ∧ u.duck = t.duck) taps ts) :
    toTaps taps = some ts := by
  induction h with
  | nil => rfl
  | @cons t u _ _ head _ ih =>
    obtain ⟨source, gain, duck⟩ := head
    have tap : toTap t = some u := by
      unfold toTap
      rw [dif_pos (by omega)]
      obtain ⟨a, b, c⟩ := u
      simp only [Option.some.injEq, Tap.mk.injEq]
      exact ⟨Fin.ext source, gain.symm, duck.symm⟩
    rw [toTaps, tap, ih]

theorem toTaps_none {taps : List TapWord} (h : ∃ t ∈ taps, 8 ≤ t.source.toNat) : toTaps taps = none := by
  induction taps with
  | nil => obtain ⟨t, ht, -⟩ := h; cases ht
  | cons w ws ih =>
    obtain ⟨t, ht, high⟩ := h
    rw [toTaps]
    obtain rfl | ht := List.mem_cons.mp ht
    · have none : toTap t = none := dif_neg (by omega)
      rw [none]
    · rw [ih ⟨t, ht, high⟩]
      cases toTap w <;> rfl

theorem toTaps_isSome {taps : List TapWord} (h : ∀ t ∈ taps, t.source.toNat < 8) : ∃ ts, toTaps taps = some ts := by
  induction taps with
  | nil => exact ⟨_, rfl⟩
  | cons w ws ih =>
    obtain ⟨ts, e⟩ := ih fun t ht => h t (List.mem_cons_of_mem _ ht)
    have tap : toTap w = some ⟨⟨w.source.toNat, h w (List.mem_cons_self ..)⟩, clamp (-768) 0 w.gain.toInt, w.duck⟩ :=
      dif_pos _
    exact ⟨_, by rw [toTaps, tap, e]⟩

theorem recordClamped_iff (w : ChannelWord) (taps : List TapWord) : recordClamped w taps = true ↔
    ¬ (-8 ≤ w.x.toInt ∧ w.x.toInt ≤ 8 ∧ w.y.toNat ≤ 15 ∧ -96 ≤ w.trim.toInt ∧ w.trim.toInt ≤ 96 ∧
      w.weight.toNat ≤ 16 ∧ (∀ t ∈ taps, -768 ≤ t.gain.toInt ∧ t.gain.toInt ≤ 0)) := by
  have gains : (taps.any fun t => clamp (-768) 0 t.gain.toInt != t.gain.toInt) = true ↔
      ¬ ∀ t ∈ taps, -768 ≤ t.gain.toInt ∧ t.gain.toInt ≤ 0 := by
    rw [List.any_eq_true]
    simp only [clamp_changes (lo := -768) (hi := 0) (by decide)]
    push Not
    rfl
  unfold recordClamped
  rw [Bool.or_eq_true, Bool.or_eq_true, Bool.or_eq_true, Bool.or_eq_true, gains, clamp_changes (by decide),
    clamp_changes (by decide), decide_eq_true_eq, decide_eq_true_eq]
  by_cases all : ∀ t ∈ taps, -768 ≤ t.gain.toInt ∧ t.gain.toInt ≤ 0
  · rw [iff_true_intro all]
    simp only [not_true, or_false, and_true]
    omega
  · simp only [all, not_false_iff, or_true, and_false]

/-- A record that keeps the enabled state and the zone changes the record and the channel's three targets (R24). -/
theorem loadRecord_plain (c : Chan) (new : ChannelRecord) (out : s.channels[c].out.isSome = new.out.isSome)
    (zone : s.channels[c].zone = new.zone) : loadRecord c new s = storeRecord c new s := by
  have same : (s.channels[c].zone != new.zone) = false := by rw [zone]; exact bne_self_eq_false _
  unfold loadRecord
  simp only [same, out, Bool.false_eq_true, if_false]
  cases new.out.isSome <;> rfl

section

variable {t : State} {c : Chan} {new : ChannelRecord}

theorem recomputeSpeed_only (channels : t.channels = s.channels.set c new) (zones : t.gain.zones = s.gain.zones)
    (old : t.gain.targets.speed = s.gain.targets.speed) : recomputeSpeed (only c) t =
      { t with gain.targets.speed := s.gain.targets.speed.set c (speedTarget (s.gain.zones.get new.zone) new) } := by
  have own : (s.channels.set c new)[c] = new := by simp
  unfold recomputeSpeed speedTargets
  rw [channels, zones, old, ofFn_only c (fun d => speedTarget (s.gain.zones.get (s.channels.set c new)[d].zone)
    (s.channels.set c new)[d]), own]

theorem recomputeMute_only (channels : t.channels = s.channels.set c new) (zones : t.gain.zones = s.gain.zones)
    (flags : t.gain.mutes = s.gain.mutes) (old : t.gain.targets.mute = s.gain.targets.mute) : recomputeMute (only c) t =
      { t with gain.targets.mute :=
          s.gain.targets.mute.set c (muteTarget s.gain.mutes[c] (s.gain.zones.get new.zone)) } := by
  have own : (s.channels.set c new)[c] = new := by simp
  unfold recomputeMute muteTargets
  rw [channels, zones, flags, old, ofFn_only c (fun d => muteTarget s.gain.mutes[d]
    (s.gain.zones.get (s.channels.set c new)[d].zone)), own]

end

theorem storeRecord_eq (c : Chan) (new : ChannelRecord) : storeRecord c new s =
    { s with channels := s.channels.set c new,
             gain.targets.user := s.gain.targets.user.set c
               (userTarget s.gain.cabin (s.gain.zones.get new.zone) new),
             gain.targets.speed := s.gain.targets.speed.set c (speedTarget (s.gain.zones.get new.zone) new),
             gain.targets.mute := s.gain.targets.mute.set c
               (muteTarget s.gain.mutes[c] (s.gain.zones.get new.zone)) } := by
  unfold storeRecord
  rw [recomputeUser_only]
  rw [recomputeSpeed_only (s := s) (new := new) ?_ ?_ ?_]
  · exact recomputeMute_only rfl rfl rfl rfl
  · rfl
  · rfl
  · rfl

/-- Settles O36: the checks in their order; then the record is loaded. -/
theorem loadChannelTaken : Obligations.LoadChannelTaken := by
  intro s w taps
  dsimp only
  have take (code : ResultCode) (t : State) (h : takeLoadChannel w taps s = done code t) :
      Completes (fun r => .loadChannel r w taps) 6 2 s (fun _ => code) (fun _ => t) :=
    completes_of_take (.loadChannel w taps) (fun _ => rfl) rfl fun _ => h
  refine ⟨fun many => take _ _ (if_pos many), fun few high => take _ _ ?_, fun few bad => take _ _ ?_,
    fun c few hc sources here used => take _ _ ?_, fun c ts few hc hts free => ?_, fun c new out zone => ?_⟩
  · unfold takeLoadChannel
    rw [if_neg (by omega), toChannel_none high]
  · unfold takeLoadChannel
    rw [if_neg (by omega), toTaps_none bad]
    cases toChannel w.channel <;> rfl
  · obtain ⟨ts, hts⟩ := toTaps_isSome sources
    have slot : (toRecord w ts).out = some w.slot.toFin := by simp [toRecord, optSlot, here]
    unfold takeLoadChannel
    rw [if_neg (by omega), toChannel_some hc, hts]
    simp only
    rw [if_pos]
    rw [slot, Option.any_some, Option.any_some, Bool.or_eq_true, slotWritten_iff, slotRead_iff]
    exact used.imp_left fun ⟨d, ne, hd⟩ => ⟨d, by simpa [only] using ne, hd⟩
  · have passes : ¬ ((toRecord w ts).out.any (slotWritten s (only c)) || (toRecord w ts).out.any (slotRead s)) = true := by
      unfold toRecord optSlot
      cases here : w.slotPresent with
      | false => simp
      | true =>
        obtain ⟨unwritten, unread⟩ := free here
        simp only [if_true, Option.any_some, Bool.or_eq_true, slotWritten_iff, slotRead_iff]
        rintro (⟨d, ne, hd⟩ | ⟨i, hi⟩)
        · exact unwritten d (by simpa [only] using ne) hd
        · exact unread i hi
    refine completes_of_take (.loadChannel w taps) (fun _ => rfl) rfl fun _ => ?_
    simp only [takeCommand, takeLoadChannel]
    rw [if_neg (by omega), toChannel_some hc, toTaps_of_forall hts]
    simp only
    rw [if_neg passes, ← clampedIf_eq (recordClamped_iff w taps)]
    rfl
  · rw [loadRecord_plain c new out zone, storeRecord_eq]

/-! ### LOAD_SECTION and LOAD_PROGRAM -/

theorem stable_iff (k : Coeffs) : stable k = true ↔ (-4194304 < k.a2.toInt ∧ k.a2.toInt < 4194304 ∧
    -(4194304 + k.a2.toInt) < k.a1.toInt ∧ k.a1.toInt < 4194304 + k.a2.toInt) := by
  unfold stable
  rw [Bool.and_eq_true, decide_eq_true_eq, decide_eq_true_eq]
  omega

theorem toSections_of_forall {entries : List (BitVec 8)} {prog : Program}
    (h : List.Forall₂ (fun (e : BitVec 8) (n : SectionId) => e.toNat = n.val) entries prog) :
    toSections entries = some prog := by
  induction h with
  | nil => rfl
  | cons head _ ih =>
    rw [toSections, ih]
    simp only
    rw [dif_pos (by omega)]
    exact congrArg some (congrArg₂ List.cons (Fin.ext head) rfl)

theorem toSections_none {entries : List (BitVec 8)} (h : ∃ e ∈ entries, 96 ≤ e.toNat) : toSections entries = none := by
  induction entries with
  | nil => obtain ⟨e, he, -⟩ := h; cases he
  | cons w ws ih =>
    obtain ⟨e, he, high⟩ := h
    rw [toSections]
    obtain rfl | he := List.mem_cons.mp he
    · cases toSections ws with
      | none => rfl
      | some p => exact dif_neg (by omega)
    · rw [ih ⟨e, he, high⟩]

theorem toPage_none {p : BitVec 4} (h : 4 ≤ p.toNat) : toPage p = none := dif_neg (by omega)

theorem toPage_some {p : BitVec 4} {q : Page} (h : p.toNat = q.val) : toPage p = some q := by
  have small : p.toNat < 4 := by omega
  unfold toPage
  rw [dif_pos small]
  exact congrArg some (Fin.ext h)

/-- Settles O38: the checks in their order, then the store. -/
theorem loadSectionAndProgram : Obligations.LoadSectionAndProgram := by
  refine ⟨fun s i k => ?_, fun s p i entries => ?_⟩
  · dsimp only
    rw [← stable_iff]
    refine ⟨fun high => ?_, fun low unstable => ?_, fun n hn passes => ⟨fun live => ?_, fun dead => ?_⟩⟩
    · refine completes_of_take (.loadSection i k) (fun _ => rfl) rfl fun _ => ?_
      exact dif_neg (by omega)
    · refine completes_of_take (.loadSection i k) (fun _ => rfl) rfl fun _ => ?_
      simp only [takeCommand, takeLoadSection]
      rw [dif_pos low, if_pos (by simpa using unstable)]
    · refine completes_of_take (.loadSection i k) (fun _ => rfl) rfl fun _ => ?_
      have low : i.toNat < 96 := by omega
      obtain rfl : n = ⟨i.toNat, low⟩ := Fin.ext hn.symm
      simp only [takeCommand, takeLoadSection]
      rw [dif_pos low, if_neg (by simp [passes]), if_pos live]
    · refine completes_of_take (.loadSection i k) (fun _ => rfl) rfl fun _ => ?_
      have low : i.toNat < 96 := by omega
      obtain rfl : n = ⟨i.toNat, low⟩ := Fin.ext hn.symm
      simp only [takeCommand, takeLoadSection]
      rw [dif_pos low, if_neg (by simp [passes]), if_neg (not_not.mpr dead), dead]
  · dsimp only
    have take (code : ResultCode) (t : State) (h : takeLoadProgram p i entries s = done code t) :
        Completes (fun r => .loadProgram r p i entries) 7 2 s (fun _ => code) (fun _ => t) :=
      completes_of_take (.loadProgram p i entries) (fun _ => rfl) rfl fun _ => h
    refine ⟨fun many => take _ _ (if_pos many), fun few bad => take _ _ ?_, fun q c prog few hq hc hprog =>
      ⟨fun invalid => take _ _ ?_, fun valid => ⟨fun used => take _ _ ?_, fun inactive untargeted => take _ _ ?_⟩⟩⟩
    · unfold takeLoadProgram
      rw [if_neg (by omega)]
      obtain high | high | bad := bad
      · rw [toPage_none high]
      · rw [toChannel_none high]
        cases toPage p <;> rfl
      · rw [toSections_none bad]
        cases toPage p <;> cases toChannel i <;> rfl
    all_goals
      unfold takeLoadProgram
      rw [if_neg (by omega), toPage_some hq, toChannel_some hc, toSections_of_forall hprog]
      simp only
    · obtain ⟨n, hn, bad⟩ := invalid
      rw [if_pos]
      rw [Bool.not_eq_true', List.all_eq_false]
      exact ⟨n, hn, by rw [bad]; exact Bool.false_ne_true⟩
    · have unused : pageInUse s q c = true := (pageInUse_iff q c).mpr used
      rw [if_neg (by simpa using valid), if_pos unused]
    · have free : ¬ pageInUse s q c = true := (pageInUse_iff q c).not.mpr (not_or.mpr ⟨inactive, untargeted⟩)
      rw [if_neg (by simpa using valid), if_neg free]
      rfl

end Sys2Proof.Machine
end

section
/-! The Notice Unit's commands, the status poll and the meters (R161 to R168, R173). -/

namespace Sys2Proof.Machine

variable {s : State} {r : Route}

/-! ### Roll calls -/

theorem recheck_good {o : OutFrame} (check : o.frame.check = checkValue o.frame.fields) : recheck o = o := by
  unfold recheck
  split
  · rw [← check]
  · rfl
  · rfl

/-- The frame that left last, rechecked once it is marked (R147, R166). -/
def markedAfter (b : Fin 8) (o : OutFrame) (s : State) : State :=
  let f : FrameFields := { o.frame.fields with roll := o.frame.fields.roll ||| (1#8 <<< b.val) }
  { s with ringOut := some { o with frame := { o.frame with fields := f, check := checkValue f } } }

theorem exec_rollCall_broadcast (h : ReadyBroadcast s r) :
    exec (.rollCall r) s = .next (mapOut recheck (markRoll s)) := by
  have marked : rollCallHeader r s = mapOut recheck (markRoll s) := by
    have hb : (r.address == broadcast) = true := by simpa [broadcast] using h.address
    unfold rollCallHeader
    rw [h.listening, hb]
    rfl
  have ready : ReadyBroadcast (mapOut recheck (markRoll s)) r := by
    obtain ⟨pin, lock, address⟩ := h
    exact ⟨(congrArg Pins.reset portStep_markRoll.pins).trans pin, portStep_markRoll.lock.trans lock, address⟩
  change Host.Outcome.next (deliver r .rollCall (rollCallHeader r s)) = _
  rw [marked, deliver_broadcast ready rfl]
  rfl

theorem rollCall_unmarked (h : ReadyBroadcast s r) {o : OutFrame} (out : s.ringOut = some o)
    (check : o.frame.check = checkValue o.frame.fields) (none : rollBit s.notices = none) :
    exec (.rollCall r) s = .next s := by
  rw [exec_rollCall_broadcast h, markRoll_none none]
  unfold mapOut
  rw [out, Option.map_some, recheck_good check, ← out]

theorem rollCall_marked (h : ReadyBroadcast s r) {o : OutFrame} (out : s.ringOut = some o) (intact : o.judged = .intact)
    {b : Fin 8} (some : rollBit s.notices = some b) : exec (.rollCall r) s = .next (markedAfter b o s) := by
  rw [exec_rollCall_broadcast h, markRoll_some some out intact]
  unfold mapOut marked markedAfter recheck
  simp only [Option.map_some, intact]

/-- Settles O42: what each command stores, and the mark of a broadcast ROLL_CALL. -/
theorem noticeCommands : Obligations.NoticeCommands := by
  refine fun s => ⟨fun kinds => ?_, fun mode b => ⟨fun bad => ?_, fun off => ?_, fun n hn => ⟨fun wp => ?_, fun wc => ?_⟩⟩,
    fun r h => ?_, fun r o h out intact check => ?_⟩
  · exact completes_of_take (.setNoticeEnable kinds) (fun _ => rfl) rfl fun _ => rfl
  · refine completes_of_take (.rollCallAssign mode b) (fun _ => rfl) rfl fun _ => ?_
    simp only [takeCommand, takeRollCallAssign]
    split
    · omega
    · rw [dif_neg (by omega)]
    · rw [dif_neg (by omega)]
    · rfl
  · refine completes_of_take (.rollCallAssign mode b) (fun _ => rfl) rfl fun _ => ?_
    rw [off]; rfl
  · refine completes_of_take (.rollCallAssign mode b) (fun _ => rfl) rfl fun _ => ?_
    have small : b.toNat < 8 := by omega
    obtain rfl : n = ⟨b.toNat, small⟩ := Fin.ext hn.symm
    rw [wp]
    exact dif_pos small
  · refine completes_of_take (.rollCallAssign mode b) (fun _ => rfl) rfl fun _ => ?_
    have small : b.toNat < 8 := by omega
    obtain rfl : n = ⟨b.toNat, small⟩ := Fin.ext hn.symm
    rw [wc]
    exact dif_pos small
  · refine (exec_rowOf (c := .rollCall) (.inr (.inr (not_broadcast_of_answersTo h.address)))).trans ?_
    rw [deliver_ready h]
    rfl
  · refine ⟨fun off => ?_, fun b wp => ?_, fun b wc => ?_⟩
    · exact rollCall_unmarked h out check (by simp [rollBit, off])
    · by_cases pending : anyKind s.notices.pending = true
      · rw [if_pos pending]
        exact rollCall_marked h out intact (by simp [rollBit, wp, pending])
      · rw [if_neg pending]
        exact rollCall_unmarked h out check (by simp [rollBit, wp, pending])
    · by_cases pending : anyKind s.notices.pending = true
      · rw [if_pos pending]
        exact rollCall_unmarked h out check (by simp [rollBit, wc, pending])
      · rw [if_neg pending]
        exact rollCall_marked h out intact (by simp [rollBit, wc, pending])

/-! ### STATUS_POLL and READ_METERS -/

/-- The first word of STATUS_POLL, its flags as one number of bits each (R164). -/
theorem statusWord (h : Nat) (a b c d e f g i j k l : Bool) (m n : Nat) :
    packWord [nat 3 h, flag a, flag b, flag c, flag d, flag e, flag f, flag true, flag g, flag i, flag j, flag k, flag l,
      nat 4 m, nat 5 n] =
    BitVec.ofNat 3 h ++ (bit a ++ bit b ++ bit c ++ bit d ++ bit e ++ bit f) ++
      (1#1 ++ bit g ++ bit i ++ bit j ++ bit k ++ bit l) ++ BitVec.ofNat 4 m ++ BitVec.ofNat 5 n ++ (0 : BitVec 8) := by
  refine packWord_eq (by simp) ?_
  have set : (bit true).toNat = 1 := rfl
  simp only [append_toNat]
  simp [set]
  omega

theorem speedsWord (a b : Nat) : packWord [nat 9 a, nat 9 b] = BitVec.ofNat 9 a ++ BitVec.ofNat 9 b ++ (0 : BitVec 14) := by
  refine packWord_eq (Nat.le_of_ble_eq_true rfl) ?_
  simp only [append_toNat]
  simp

theorem peakWord (n : Nat) : packWord [nat 24 n] = BitVec.ofNat 24 n ++ (0 : BitVec 8) := by
  refine packWord_eq (Nat.le_of_ble_eq_true rfl) ?_
  simp only [append_toNat]
  simp

theorem clipWord (a b : Nat) : packWord [nat 16 a, nat 16 b] = BitVec.ofNat 16 a ++ BitVec.ofNat 16 b := by
  refine packWord_eq (Nat.le_of_ble_eq_true rfl) ?_
  simp only [append_toNat]
  simp

theorem statusFields (x : BitVec 3) (y z : BitVec 6) (m : BitVec 4) (n : BitVec 5) :
    let w : Word32 := x ++ y ++ z ++ m ++ n ++ (0 : BitVec 8)
    w.extractLsb' 29 3 = x ∧ w.extractLsb' 23 6 = y ∧ w.extractLsb' 17 6 = z ∧ w.extractLsb' 13 4 = m ∧
      w.extractLsb' 8 5 = n := by
  dsimp only
  refine ⟨by grind, by grind, by grind, by grind, by grind⟩

theorem speedsFields (x y : BitVec 9) : let w : Word32 := x ++ y ++ (0 : BitVec 14)
    w.extractLsb' 23 9 = x ∧ w.extractLsb' 14 9 = y := by
  dsimp only
  refine ⟨by grind, by grind⟩

theorem peakField (x : BitVec 24) : (x ++ (0 : BitVec 8) : Word32).extractLsb' 8 24 = x := by grind

theorem clipFields (x y : BitVec 16) : (x ++ y : Word32).extractLsb' 16 16 = x ∧ (x ++ y : Word32).extractLsb' 0 16 = y := by
  refine ⟨by grind, by grind⟩

theorem ofNat_toNat_small {n a : Nat} (h : a < 2 ^ n) : (BitVec.ofNat n a).toNat = a := by
  rw [BitVec.toNat_ofNat, Nat.mod_eq_of_lt h]

/-- Settles O43: the words by their fields, the rest of the state by what each command restarts. -/
theorem pollAndMeters : Obligations.PollAndMeters := by
  intro s r h
  refine ⟨⟨_, _, (?_ : exec (.statusPoll r) s = .next (({ s with notices.pending := NoticeSet.empty } : State).answering
    .ok 8 2 (statusWords s) .nothing)), ?_⟩, ⟨meterWords s, ?_, ?_, fun inv => ⟨?_, fun k => ?_⟩⟩⟩
  · exact congrArg Host.Outcome.next (deliver_ready (c := .statusPoll) h)
  · rw [statusWord, speedsWord]
    obtain ⟨code, kinds, flags, fading, waiting⟩ := statusFields (BitVec.ofNat 3 (highestCode s.notices.pending))
      (bit s.notices.pending.relock ++ bit s.notices.pending.speedLost
        ++ bit s.notices.pending.ctrlLost ++ bit s.notices.pending.clip ++ bit s.notices.pending.pageSettled
        ++ bit s.notices.pending.duckLine)
      (1#1 ++ bit s.speed.fresh ++ bit (duckActive s.gain.zones.a s.duck.level)
        ++ bit (duckActive s.gain.zones.b s.duck.level) ++ bit s.sched.settled.a ++ bit s.sched.settled.b)
      (BitVec.ofNat 4 (fadingCount s)) (BitVec.ofNat 5 s.sched.queue.length)
    obtain ⟨accepted, effective⟩ := speedsFields (BitVec.ofNat 9 s.speed.accepted) (BitVec.ofNat 9 s.speed.effective)
    refine ⟨⟨fun e => ?_, fun e => ?_, fun e1 e2 => ?_, fun e1 e2 e3 => ?_, fun e1 e2 e3 e4 => ?_,
      fun e1 e2 e3 e4 e5 => ?_, fun e1 e2 e3 e4 e5 e6 => ?_⟩, kinds, flags, fun queue fades => ⟨?_, ?_⟩,
      fun ha he => ⟨?_, ?_⟩⟩
    · rw [code, e]; rfl
    · rw [code]; simp [highestCode, e]
    · rw [code]; simp [highestCode, e1, e2]
    · rw [code]; simp [highestCode, e1, e2, e3]
    · rw [code]; simp [highestCode, e1, e2, e3, e4]
    · rw [code]; simp [highestCode, e1, e2, e3, e4, e5]
    · rw [code]; simp [highestCode, e1, e2, e3, e4, e5, e6]
    · rw [fading, ofNat_toNat_small (by omega)]
    · rw [waiting, ofNat_toNat_small (by omega)]
    · rw [accepted, ofNat_toNat_small (by omega)]
    · rw [effective, ofNat_toNat_small (by omega)]
  · have clips := pairWords_length (n := 12) (nat 16) s.output.clips
    simp [meterWords, clips]
  · exact congrArg Host.Outcome.next (deliver_ready (c := .readMeters) h)
  · have pa : s.output.peaks.a ≤ 8388608 := inv.peaks .a
    have pb : s.output.peaks.b ≤ 8388608 := inv.peaks .b
    refine ⟨_, _, rfl, rfl, ?_, ?_⟩
    · rw [peakWord, peakField, ofNat_toNat_small (by omega)]
    · rw [peakWord, peakField, ofNat_toNat_small (by omega)]
  · have word : (meterWords s)[k.val + 2]? = (pairWords (s.output.clips.toList.map (nat 16)))[k.val]? := by
      unfold meterWords
      rw [List.getElem?_append_right (by simp)]
      rfl
    have first := inv.clips ⟨2 * k.val, by omega⟩
    have second := inv.clips ⟨2 * k.val + 1, by omega⟩
    obtain ⟨high, low⟩ := clipFields (BitVec.ofNat 16 s.output.clips[2 * k.val])
      (BitVec.ofNat 16 s.output.clips[2 * k.val + 1])
    refine ⟨_, word.trans (pairWords_at (n := 12) (nat 16) s.output.clips k.val ⟨2 * k.val, by omega⟩
      ⟨2 * k.val + 1, by omega⟩ rfl rfl), ?_, ?_⟩
    · rw [clipWord]
      exact (congrArg BitVec.toNat high).trans (ofNat_toNat_small (lt_of_le_of_lt first (by decide)))
    · rw [clipWord]
      exact (congrArg BitVec.toNat low).trans (ofNat_toNat_small (lt_of_le_of_lt second (by decide)))

end Sys2Proof.Machine
end

section
/-! The arithmetic of the audio (chapter 1): scaling, blending, sections and chains, and one channel in one frame. -/

namespace Sys2Proof.Machine

variable {s : State}

/-! ### Scaling -/

theorem scale_eq {x : Sample} {g q : Int} {r p : Nat} (cut : -768 < g) (hg : g = 48 * q + r) (hr : r < 48)
    (hp : (p : Int) = 23 - q) : scale x g = (x.toInt * doubling r + 2 ^ (p - 1)) / 2 ^ p := by
  have quotient : g / 48 = q := by omega
  have remainder : (g % 48).toNat = r := by omega
  have power : (23 - q).toNat = p := by omega
  unfold scale
  rw [if_neg (by omega)]
  simp only [quotient, remainder, power]

/-- A rounded share of `x` of at most `k` times its whole keeps the sign of `x`, and is at most `k` times as large. -/
theorem rounded_bound {x d n h k : Int} (hd : 0 ≤ d) (hdn : d ≤ k * n) (hn : 0 < n) (h0 : 0 ≤ h) (hh : h < n) :
    (0 ≤ x → 0 ≤ (x * d + h) / n ∧ (x * d + h) / n ≤ k * x) ∧ (x ≤ 0 → k * x ≤ (x * d + h) / n ∧ (x * d + h) / n ≤ 0) := by
  constructor
  · intro hx
    refine ⟨Int.ediv_nonneg (by nlinarith) (by omega), Int.lt_add_one_iff.mp (Int.ediv_lt_of_lt_mul hn ?_)⟩
    nlinarith
  · intro hx
    refine ⟨Int.le_ediv_of_mul_le hn ?_, Int.lt_add_one_iff.mp (Int.ediv_lt_of_lt_mul hn ?_)⟩
    · nlinarith
    · nlinarith

/-- Up to the gain +96, the table entry is at most 4 times the power a scaling divides by, and at most the power itself up
to the gain 0. -/
theorem doubling_le {g : Int} (cut : -768 < g) (hg : g ≤ 96) : ∃ (q : Int) (r p : Nat), g = 48 * q + r ∧ r < 48 ∧
    (p : Int) = 23 - q ∧ 0 ≤ doubling r ∧ doubling r ≤ 4 * 2 ^ p ∧ (g ≤ 0 → doubling r ≤ 1 * 2 ^ p) ∧
    (0 : Int) ≤ 2 ^ (p - 1) ∧ (2 : Int) ^ (p - 1) < 2 ^ p := by
  have entry := doubling_range ⟨(g % 48).toNat, by omega⟩
  simp only at entry
  refine ⟨g / 48, (g % 48).toNat, (23 - g / 48).toNat, by omega, by omega, by omega, by omega, ?_, fun low => ?_,
    by positivity, ?_⟩
  · by_cases top : g = 96
    · subst top; decide
    · have grows : (2 : Int) ^ 22 ≤ 2 ^ (23 - g / 48).toNat := pow_le_pow_right₀ (by norm_num) (by omega)
      omega
  · by_cases top : g = 0
    · subst top; decide
    · have grows : (2 : Int) ^ 24 ≤ 2 ^ (23 - g / 48).toNat := pow_le_pow_right₀ (by norm_num) (by omega)
      omega
  · exact pow_lt_pow_right₀ (by norm_num) (by omega)

theorem scale_bound (x : Sample) {g : Int} (hg : g ≤ 96) :
    (scale x g).natAbs ≤ 4 * x.toInt.natAbs ∧
      (g ≤ 0 → (0 ≤ x.toInt → 0 ≤ scale x g ∧ scale x g ≤ x.toInt) ∧ (x.toInt ≤ 0 → x.toInt ≤ scale x g ∧ scale x g ≤ 0)) := by
  by_cases cut : g ≤ -768
  · have silent : scale x g = 0 := by rw [scale, if_pos cut]
    rw [silent]
    omega
  · obtain ⟨q, r, p, hq, hr, hp, d0, d4, d1, h0, hh⟩ := doubling_le (by omega) hg
    rw [scale_eq (by omega) hq hr hp]
    have power : (0 : Int) < 2 ^ p := by positivity
    constructor
    · have bound := rounded_bound (x := x.toInt) d0 d4 power h0 hh
      generalize (x.toInt * doubling r + 2 ^ (p - 1)) / 2 ^ p = v at bound ⊢
      omega
    · intro low
      have bound := rounded_bound (x := x.toInt) d0 (d1 low) power h0 hh
      simpa using bound

/-- Settles O48: the scaling as a rounded share, and the ranges of the gains. -/
theorem scalingRange : Obligations.ScalingRange := by
  refine ⟨fun x g => ⟨fun cut => by rw [scale, if_pos cut], fun q r p cut top hg hr hp => ?_, ?_, ?_, ?_, fun low => ?_,
    fun top => (scale_bound x top).1⟩, fun s lanes routing c => ⟨clamp_range (by decide), fun t ht => ?_⟩⟩
  · rw [scale_eq cut hg hr hp]
    have power : (0 : Int) < 2 ^ p := by positivity
    exact ⟨Int.mul_ediv_self_le (by omega), by rw [mul_add, mul_one]; exact Int.lt_mul_ediv_self_add power⟩
  · rw [scale_eq (q := 0) (r := 0) (p := 23) (by omega) (by omega) (by omega) (by omega)]
    exact share_full x.toInt (by decide) (by decide)
  · rw [scale_eq (q := 1) (r := 0) (p := 22) (by omega) (by omega) (by omega) (by omega)]
    have whole : x.toInt * doubling 0 = 2 * x.toInt * 2 ^ 22 := by
      rw [show doubling 0 = 8388608 from rfl]; omega
    rw [whole]
    exact share_full _ (by decide) (by decide)
  · rw [scale_eq (q := 2) (r := 0) (p := 21) (by omega) (by omega) (by omega) (by omega)]
    have whole : x.toInt * doubling 0 = 4 * x.toInt * 2 ^ 21 := by
      rw [show doubling 0 = 8388608 from rfl]; omega
    rw [whole]
    exact share_full _ (by decide) (by decide)
  · obtain ⟨pos, neg⟩ := (scale_bound x (by omega : g ≤ 96)).2 low
    have lo : -8388608 ≤ x.toInt := BitVec.le_toInt x
    have hi : x.toInt < 8388608 := BitVec.toInt_lt
    omega
  · have tap := (routing.taps c).2 t ht
    have duck := lanes.currents.duck s.channels[c].zone
    unfold tapGain
    split <;> omega

/-! ### Saturation and the blend -/

theorem sample_range (x : Sample) : -8388608 ≤ x.toInt ∧ x.toInt < 8388608 := ⟨BitVec.le_toInt x, BitVec.toInt_lt⟩

theorem saturate_toInt (v : Int) : (saturate v).toInt = clamp sampleMin sampleMax v := by
  unfold saturate clamp sampleMin sampleMax
  rw [BitVec.toInt_ofInt, Int.bmod_eq_of_le (by omega) (by omega)]

theorem saturates_iff (v : Int) : saturates v = true ↔ v < -8388608 ∨ 8388607 < v := by
  unfold saturates sampleMin sampleMax
  rw [Bool.or_eq_true, decide_eq_true_eq, decide_eq_true_eq]

/-- The rounded share `j` of `n` on the way from `a` to `b` lies between them. -/
theorem blend_between {a b j n h : Int} (h0 : 0 ≤ h) (hh : h < n) (j0 : 0 ≤ j) (hj : j ≤ n) :
    min a b ≤ a + ((b - a) * j + h) / n ∧ a + ((b - a) * j + h) / n ≤ max a b := by
  obtain up | down := le_total a b
  · obtain ⟨lo, hi⟩ := share_range (a := b - a) (m := b - a) (by omega) (le_refl _) j0 hj h0 hh
    omega
  · have lo : b - a ≤ ((b - a) * j + h) / n := Int.le_ediv_of_mul_le (by omega) (by nlinarith)
    have hi : ((b - a) * j + h) / n < 1 := Int.ediv_lt_of_lt_mul (by omega) (by nlinarith)
    omega

/-- Settles O49: the blend is between its ends, so no narrowing changes it. -/
theorem blendBetween : Obligations.BlendBetween := by
  intro o n j len hj hjl
  have between := blend_between (a := o.toInt) (b := n.toInt) (j := j) (n := len) (h := (len : Int) / 2) (by omega)
    (by omega) (by omega) (by omega)
  have ro := sample_range o
  have rn := sample_range n
  have inside : -8388608 ≤ blend o n j len ∧ blend o n j len ≤ 8388607 := by unfold blend; omega
  refine ⟨rfl, between.1, between.2, ?_, ?_, fun last => ?_, fun same => ?_⟩
  · rw [← Bool.not_eq_true, saturates_iff]; omega
  · rw [saturate_toInt]; unfold clamp sampleMin sampleMax; omega
  · subst last
    unfold blend
    rw [share_full _ (by omega) (by omega)]
    omega
  · subst same
    unfold blend
    rw [sub_self, zero_mul, zero_add, Int.ediv_eq_zero_of_lt (by omega) (by omega), add_zero]

/-! ### Sections and chains -/

theorem runChain_append (ks ls : List Coeffs) (hs gs : Chain) (x : Sample) (h : ks.length = hs.length) :
    runChain (ks ++ ls) (hs ++ gs) x =
      { chain := (runChain ks hs x).chain ++ (runChain ls gs (runChain ks hs x).out).chain,
        out := (runChain ls gs (runChain ks hs x).out).out,
        clipped := (runChain ks hs x).clipped || (runChain ls gs (runChain ks hs x).out).clipped } := by
  induction ks generalizing hs x with
  | nil =>
    obtain rfl := List.length_eq_zero_iff.mp h.symm
    simp [runChain]
  | cons k ks ih =>
    cases hs with
    | nil => simp at h
    | cons p hs =>
      simp only [List.length_cons, Nat.add_right_cancel_iff] at h
      simp [runChain, ih hs _ h, Bool.or_assoc]

/-- A product of a coefficient and a sample, or of two samples. -/
theorem product_range (a b : BitVec 24) : -70368744177664 ≤ a.toInt * b.toInt ∧ a.toInt * b.toInt ≤ 70368744177664 := by
  have ra := sample_range a
  have rb := sample_range b
  constructor <;> nlinarith

/-- Settles O60: a section is its rounded accumulator, a chain its sections in order. -/
theorem filterChains : Obligations.FilterChains := by
  refine ⟨fun v => ⟨?_, ?_⟩, fun k h x => ?_, fun k x => ?_, fun _ _ => rfl, fun ks ls hs gs x h => runChain_append ks ls hs gs x h,
    fun ks hs x => runChain_length ks hs x⟩
  · rw [saturate_toInt]; unfold clamp sampleMin sampleMax; split <;> omega
  · rw [saturates_iff, saturate_toInt]; unfold clamp sampleMin sampleMax; omega
  · have p0 := product_range k.b0 x
    have p1 := product_range k.b1 h.x1
    have p2 := product_range k.b2 h.x2
    have p3 := product_range k.a1 h.y1
    have p4 := product_range k.a2 h.y2
    dsimp only
    refine ⟨?_, ?_, ?_, rfl, by simp [runChain], by simp [runChain, Position.advance]⟩
    · unfold sectionSum; omega
    · unfold sectionSum; omega
    · omega
  · simp [runChain, sectionSum, Position.zero]

/-! ### One channel in one frame -/

theorem fadeOf_fading {c : Chan} {p : Page} {i : FadeSlot} {f : Fade} (h : s.sched.switch[c] = .fading p i)
    (hf : s.sched.slots[i] = some f) : fadeOf s (occupied s) c = some f := by
  have own : (occupied s)[i] = some f.channel := by
    have at_ : (occupied s)[i] = (s.sched.slots[i]).map Fade.channel := by simp [occupied]
    rw [at_, hf]
    rfl
  unfold fadeOf stepsIn
  rw [h]
  simp only
  rw [hf, own]
  simp

/-- Settles O50: the voicing by the switch state, the mix and the net gain around it. -/
theorem channelInOneFrame : Obligations.ChannelInOneFrame := by
  intro s taken c
  dsimp only
  refine ⟨fun p q h => ?_, fun p i f g h hf hg => ?_⟩
  · have none : fadeOf s (occupied s) c = none := by
      unfold fadeOf; obtain h | h := h <;> rw [h]
    rw [none]
    exact ⟨rfl, rfl, rfl, rfl⟩
  · rw [fadeOf_fading h hf]
    have two (mix : Sample) : runVoicing s c (some f) mix =
        { out := saturate (blend (runChain (coeffsOf s (activePage s.sched.switch[c]) c) s.equaliser.active[c] mix).out
            (runChain (coeffsOf s f.target c) g mix).out (f.k + 1) f.length),
          clipped := (runChain (coeffsOf s (activePage s.sched.switch[c]) c) s.equaliser.active[c] mix).clipped ||
            (runChain (coeffsOf s f.target c) g mix).clipped ||
            saturates (blend (runChain (coeffsOf s (activePage s.sched.switch[c]) c) s.equaliser.active[c] mix).out
              (runChain (coeffsOf s f.target c) g mix).out (f.k + 1) f.length),
          active := (runChain (coeffsOf s (activePage s.sched.switch[c]) c) s.equaliser.active[c] mix).chain,
          target := some (runChain (coeffsOf s f.target c) g mix).chain } := by
      unfold runVoicing; rw [hg]
    unfold runChannel
    simp only [two]
    refine ⟨rfl, rfl, rfl, fun long more => ?_⟩
    have exact_ := (blendBetween (runChain (coeffsOf s (activePage s.sched.switch[c]) c) s.equaliser.active[c]
      (saturate (mixSum taken (s.ramp.currents.duck.get s.channels[c].zone) s.channels[c].taps))).out
      (runChain (coeffsOf s f.target c) g
        (saturate (mixSum taken (s.ramp.currents.duck.get s.channels[c].zone) s.channels[c].taps))).out (f.k + 1)
      f.length (by omega) (by omega)).2.2.2.1
    rw [exact_, Bool.or_false]
    simp only [Bool.or_assoc]
    rfl

end Sys2Proof.Machine
end

section
/-! What a set of page requests makes of a state (R105, R106, R131, R144): `MovesPages`, proved once for every command
and event of the Gain Planner that hands requests on. -/

namespace Sys2Proof.Machine

variable {s t u w : State}

/-! ### One request -/

/-- From `s` to `t` the switch state of no channel but `c` changes, no settled flag and no notice. -/
structure AsksOnly (c : Chan) (s t : State) : Prop where
  others : ∀ d : Chan, d ≠ c → t.sched.switch[d] = s.sched.switch[d]
  settled : t.sched.settled = s.sched.settled
  notices : t.notices = s.notices

theorem asksOnly_setSwitch (c : Chan) (v : Switch) : AsksOnly c s (setSwitch c v s) :=
  ⟨fun d hd => by rw [setSwitch_at, if_neg hd], rfl, rfl⟩

/-- What leaves the switch states, settled flags and notices as they are asks no further channel. -/
theorem AsksOnly.stay {c : Chan} (h : AsksOnly c s t) (switch : u.sched.switch = t.sched.switch)
    (settled : u.sched.settled = t.sched.settled) (notices : u.notices = t.notices) : AsksOnly c s u :=
  ⟨fun d hd => by rw [switch, h.others d hd], settled.trans h.settled, notices.trans h.notices⟩

theorem AsksOnly.refl (c : Chan) (s : State) : AsksOnly c s s := ⟨fun _ _ => rfl, rfl, rfl⟩

theorem startFade_asksOnly (c : Chan) (p q : Page) (i : FadeSlot) : AsksOnly c s (startFade c p q i s) :=
  (asksOnly_setSwitch (s := s) c (.fading p i)).stay (by simp [startFade, eqStart, setTargetChain, setSlot, setSwitch])
    (by simp [startFade, eqStart, setTargetChain, setSlot, setSwitch])
    (by simp [startFade, eqStart, setTargetChain, setSlot, setSwitch])

theorem instantSwitch_asksOnly (c : Chan) (p q : Page) : AsksOnly c s (instantSwitch c p q s) :=
  (asksOnly_setSwitch (s := s) c (.steady q)).stay (by simp [instantSwitch, eqSwitch, setActiveChain, setSwitch])
    (by simp [instantSwitch, eqSwitch, setActiveChain, setSwitch])
    (by simp [instantSwitch, eqSwitch, setActiveChain, setSwitch])

theorem requestEnabled_asksOnly (c : Chan) (r : Page) : AsksOnly c s (requestEnabled c r s) := by
  unfold requestEnabled
  split
  · split
    · exact .refl c s
    · split
      · exact startFade_asksOnly ..
      · exact (asksOnly_setSwitch c _).stay rfl rfl rfl
  · split
    · exact (asksOnly_setSwitch c _).stay rfl rfl rfl
    · exact asksOnly_setSwitch c _
  · split
    · exact (AsksOnly.refl c s).stay rfl rfl rfl
    · exact .refl c s

theorem pageRequest_asksOnly (c : Chan) (r : Page) : AsksOnly c s (pageRequest c r s) := by
  unfold pageRequest requestDisabled
  split
  · exact requestEnabled_asksOnly c r
  · split
    · split
      · exact .refl c s
      · exact instantSwitch_asksOnly ..
    · exact .refl c s
    · exact .refl c s

theorem requestIfIn_asksOnly (a b : Bool) (c : Chan) : AsksOnly c s (requestIfIn a b s c) := by
  rw [requestIfIn_eq]
  split
  · exact pageRequest_asksOnly ..
  · exact .refl c s

/-! ### A set of requests -/

/-- A set of requests leaves the channels of zones not picked, the settled flags and the notices as they are. -/
theorem requests_unasked (a b : Bool) (l : List Chan) : ∀ s : State,
    (∀ c : Chan, pick a b s.channels[c].zone = false →
      (l.foldl (requestIfIn a b) s).sched.switch[c] = s.sched.switch[c]) ∧
    (l.foldl (requestIfIn a b) s).sched.settled = s.sched.settled ∧
    (l.foldl (requestIfIn a b) s).notices = s.notices := by
  induction l with
  | nil => exact fun s => ⟨fun _ _ => rfl, rfl, rfl⟩
  | cons d l ih =>
    intro s
    obtain ⟨switch, settled, notices⟩ := ih (requestIfIn a b s d)
    have one := requestIfIn_asksOnly (s := s) a b d
    have only := onlyPages_requestIfIn a b s d
    refine ⟨fun c hc => (switch c (by rw [only.channels]; exact hc)).trans ?_, settled.trans one.settled,
      notices.trans one.notices⟩
    by_cases e : c = d
    · subst e
      rw [requestIfIn_eq, asked_eq, hc]
      rfl
    · exact one.others c e

theorem requested_unasked (a b : Bool) :
    (∀ c : Chan, pick a b s.channels[c].zone = false → (requested a b s).sched.switch[c] = s.sched.switch[c]) ∧
    (requested a b s).sched.settled = s.sched.settled ∧ (requested a b s).notices = s.notices :=
  by unfold requested; exact requests_unasked a b (List.finRange 24) s

/-- The zone's requested page differs in `u` from the one in `s`. -/
def pageChanged (s u : State) (z : Zone) : Bool :=
  (u.gain.zones.get z).requestedPage != (s.gain.zones.get z).requestedPage

theorem pageChanged_iff {z : Zone} : pageChanged s u z = true ↔
    (u.gain.zones.get z).requestedPage ≠ (s.gain.zones.get z).requestedPage := bne_iff_ne

theorem pick_pageChanged (z : Zone) : pick (pageChanged s u .a) (pageChanged s u .b) z = pageChanged s u z := by
  cases z <;> rfl

theorem askAll_eq : askAll s u = requested (pageChanged s u .a) (pageChanged s u .b) u := by
  have fold : ∀ (l : List Chan) (t : State), OnlyPagesMove u t →
      l.foldl (fun t c =>
        if (u.gain.zones.get u.channels[c].zone).requestedPage = (s.gain.zones.get u.channels[c].zone).requestedPage
        then t else pageRequest c (u.gain.zones.get u.channels[c].zone).requestedPage t) t =
      l.foldl (requestIfIn (pageChanged s u .a) (pageChanged s u .b)) t := by
    intro l
    induction l with
    | nil => exact fun _ _ => rfl
    | cons c l ih =>
      intro t ht
      have one : requestIfIn (pageChanged s u .a) (pageChanged s u .b) t c =
          if (u.gain.zones.get u.channels[c].zone).requestedPage = (s.gain.zones.get u.channels[c].zone).requestedPage
          then t else pageRequest c (u.gain.zones.get u.channels[c].zone).requestedPage t := by
        rw [requestIfIn_eq, asked_eq, pick_pageChanged, ht.channels, ht.gain]
        by_cases e : (u.gain.zones.get u.channels[c].zone).requestedPage =
          (s.gain.zones.get u.channels[c].zone).requestedPage
        · rw [if_pos e, if_neg fun h => pageChanged_iff.mp h e]
        · rw [if_neg e, if_pos (pageChanged_iff.mpr e)]
      rw [List.foldl_cons, List.foldl_cons, ← one]
      exact ih _ (ht.trans (onlyPages_requestIfIn _ _ t c))
  exact fold (List.finRange 24) u (.refl u)

/-- `u` with the page requests that its changed requested pages hand on (R106). -/
def handChanged (s u : State) : State :=
  if pageChanged s u .a || pageChanged s u .b then handRequests (pageChanged s u .a) (pageChanged s u .b) u else u

theorem reviewPages_eq (a b : Bool) :
    reviewPages a b s = handChanged s { s with gain.zones := reviewedZones a b s.gain.zones } := rfl

theorem requested_none : requested false false s = s := by
  have keep : ∀ c, requestIfIn false false s c = s := fun c => by
    rw [requestIfIn_eq, asked_eq, show pick false false s.channels[c].zone = false by cases s.channels[c].zone <;> rfl]
    rfl
  unfold requested
  generalize List.finRange 24 = l
  induction l with
  | nil => rfl
  | cons c l ih => rw [List.foldl_cons, keep, ih]

theorem resettleZones_none : resettleZones false false s = s := rfl

/-- Where no page changed the requests, and the flags to evaluate, are none. -/
theorem handChanged_eq : handChanged s u = resettleZones (pageChanged s u .a) (pageChanged s u .b)
    (requested (pageChanged s u .a) (pageChanged s u .b) u) := by
  unfold handChanged
  cases ha : pageChanged s u .a <;> cases hb : pageChanged s u .b
  · rw [requested_none, if_neg (by decide), resettleZones_none]
  all_goals rw [if_pos (by decide), handRequests_eq]

/-- The Equaliser is not touched by the settled flags. -/
theorem equaliser_resettleZones (a b : Bool) : (resettleZones a b s).equaliser = s.equaliser := by
  cases a <;> cases b <;> simp [resettleZones, resettle]

/-- The page requests of a change of settings, the channels and their switch states still being those of `s`. -/
theorem movesPages_handChanged (hsched : u.sched = s.sched) (hch : u.channels = s.channels)
    (hexp : ∀ z : Zone, (u.gain.zones.get z).exponent = (s.gain.zones.get z).exponent ∨
      8 ≤ (u.gain.zones.get z).exponent ∧ (u.gain.zones.get z).exponent ≤ 13) : MovesPages s u (handChanged s u) := by
  obtain ⟨unasked, settled, notices⟩ := requested_unasked (s := u) (pageChanged s u .a) (pageChanged s u .b)
  have asks := requested_onlyPages (s := u) (pageChanged s u .a) (pageChanged s u .b)
  rw [handChanged_eq]
  obtain ⟨switch, flags, notice⟩ := resettleZones_spec (pageChanged s u .a) (pageChanged s u .b)
    (requested (pageChanged s u .a) (pageChanged s u .b) u)
  have only := asks.trans (onlyPages_resettleZones (pageChanged s u .a) (pageChanged s u .b))
  have same := sameSched_resettleZones (s := requested (pageChanged s u .a) (pageChanged s u .b) u)
    (pageChanged s u .a) (pageChanged s u .b)
  constructor
  case only => exact only
  case switch => rw [askAll_eq]; exact same.switch
  case slots => rw [askAll_eq]; exact same.slots
  case queue => rw [askAll_eq]; exact same.queue
  case equaliser => rw [askAll_eq]; exact equaliser_resettleZones ..
  case same =>
    intro h
    have no (z : Zone) : pageChanged s u z = false := Bool.eq_false_iff.mpr fun c => pageChanged_iff.mp c (h z)
    rw [no, no, requested_none, resettleZones_none]
  case unasked =>
    intro c h
    rw [switch, ← hsched]
    exact unasked c (by rw [pick_pageChanged]; exact Bool.eq_false_iff.mpr fun e => pageChanged_iff.mp e h)
  case onTheWay =>
    intro hs hp c
    have hu : SchedInv u := hs.of_same
      ⟨by rw [hsched], by rw [hsched], by rw [hsched], fun _ => by rw [hch], hexp⟩
    have on := (hp.handRequests hu (a := pageChanged s u .a) (b := pageChanged s u .b) hsched hch fun z hz =>
      not_not.mp fun e => Bool.eq_false_iff.mp (pick_pageChanged (s := s) (u := u) z ▸ hz) (pageChanged_iff.mpr e)).onTheWay c
    rw [handRequests_eq, only.gain, only.channels] at on
    exact on
  case flags =>
    intro z
    rw [resettleZones_settled, pick_pageChanged]
    refine ⟨fun h => ?_, fun h => ?_⟩
    · rw [if_pos (pageChanged_iff.mpr h), ← isSettled_resettleZones, isSettled_iff]
    · rw [if_neg fun e => h (pageChanged_iff.mp e), settled, hsched]
  case notice =>
    unfold SettledNotice at *
    rw [notice, notices, settled]

theorem movesPages_reviewPages (a b : Bool) (hsched : w.sched = s.sched) (hch : w.channels = s.channels)
    (hpage : ∀ z : Zone, (w.gain.zones.get z).requestedPage = (s.gain.zones.get z).requestedPage)
    (hexp : ∀ z : Zone, (w.gain.zones.get z).exponent = (s.gain.zones.get z).exponent ∨
      8 ≤ (w.gain.zones.get z).exponent ∧ (w.gain.zones.get z).exponent ≤ 13) :
    MovesPages s { w with gain.zones := reviewedZones a b w.gain.zones } (reviewPages a b w) := by
  have moves := movesPages_handChanged (s := s) (u := { w with gain.zones := reviewedZones a b w.gain.zones })
    hsched hch fun z => by rw [reviewedZones_exponent]; exact hexp z
  rw [reviewPages_eq]
  have change (z : Zone) : pageChanged w { w with gain.zones := reviewedZones a b w.gain.zones } z =
      pageChanged s { w with gain.zones := reviewedZones a b w.gain.zones } z := by
    unfold pageChanged; rw [hpage]
  unfold handChanged at moves ⊢
  rw [change, change]
  exact moves

/-- No requested page being changed, no request is handed on. -/
theorem movesPages_refl (hsched : u.sched = s.sched) (hch : u.channels = s.channels)
    (hz : ∀ z : Zone, (u.gain.zones.get z).exponent = (s.gain.zones.get z).exponent)
    (hpage : ∀ z : Zone, (u.gain.zones.get z).requestedPage = (s.gain.zones.get z).requestedPage) :
    MovesPages s u u := by
  have moves := movesPages_handChanged hsched hch fun z => .inl (hz z)
  rwa [moves.same hpage] at moves

end Sys2Proof.Machine
end

section
/-! The commands and the event that hand page requests on: SET_ZONE_OPTIONS, SELECT_PAGE, LOAD_SDV_CURVE, the speed
commands and the staleness expiry (R78, R87, R92 to R95, R101, R107 to R110). -/

namespace Sys2Proof.Machine

variable {s t u w : State}

/-! ### One zone's settings -/

theorem reviewedZones_set (z : Zone) (y : ZoneRecord) (zs : PerZone ZoneRecord) :
    reviewedZones (z == .a) (z == .b) (zs.set z y) = zs.set z (reviewZone y) := by cases z <;> rfl

/-- The requested page of a zone evaluated anew after its record `y` has replaced the old one. -/
theorem movesPages_reviewPage {z : Zone} {y : ZoneRecord}
    (hu : u = { w with gain.zones := s.gain.zones.set z (reviewZone y) }) (zones : w.gain.zones = s.gain.zones.set z y)
    (hsched : w.sched = s.sched) (hch : w.channels = s.channels)
    (hpage : y.requestedPage = (s.gain.zones.get z).requestedPage)
    (hexp : y.exponent = (s.gain.zones.get z).exponent ∨ 8 ≤ y.exponent ∧ y.exponent ≤ 13) :
    MovesPages s u (reviewPage z w) := by
  subst hu
  have moves := movesPages_reviewPages (w := w) (z == .a) (z == .b) hsched hch
    (fun x => by rw [zones, PerZone.get_set]; split <;> simp_all)
    (fun x => by
      rw [zones, PerZone.get_set]
      split
      · subst x; exact hexp
      · exact .inl rfl)
  rwa [zones, reviewedZones_set] at moves

/-- The speed targets of a zone's channels, its record being replaced, formed from the record with any requested page. -/
theorem recomputeSpeed_zone (z : Zone) (y : ZoneRecord) :
    recomputeSpeed (inZone (setZone z y s) z) (setZone z y s) =
      { s with gain.zones := s.gain.zones.set z y,
               gain.targets.speed := zoneTargets z y s.channels speedTarget s.gain.targets.speed } := by
  have same : inZone (setZone z y s) z = inZone s z := rfl
  unfold recomputeSpeed
  rw [same, speedTargets_zone (t := setZone z y s) (zone := y) rfl rfl rfl]
  rfl

theorem optionsClamped_iff (o : ZoneOptionsWord) : optionsClamped o = true ↔
    ¬ (o.depth.toNat ≤ 768 ∧ -768 ≤ o.ceiling.toInt ∧ o.ceiling.toInt ≤ 96 ∧ 8 ≤ o.exponent.toNat ∧
      o.exponent.toNat ≤ 13) := by
  unfold optionsClamped
  rw [Bool.or_eq_true, Bool.or_eq_true, clamp_changes (by decide), clampNat_changes (by decide)]
  simp only [decide_eq_true_eq]
  omega

/-- Settles O23: the options are stored, the zone's speed and duck targets formed anew, its requested page reviewed. -/
theorem setZoneOptions : Obligations.SetZoneOptions := by
  intro s o
  refine completesAskingPages_of_take (.setZoneOptions o) (fun _ => rfl) rfl fun z =>
    ⟨_, congrArg (done · _) (clampedIf_eq (optionsClamped_iff o)), ?_⟩
  rw [recomputeSpeed_zone]
  unfold recomputeDuck
  rw [show (s.gain.zones.set z (storeOptions o (s.gain.zones.get z))).get z = _ from
    (PerZone.get_set ..).trans (if_pos rfl)]
  exact movesPages_reviewPage (y := storeOptions o (s.gain.zones.get z)) rfl rfl rfl rfl rfl
    (.inr (by unfold storeOptions clampNat; dsimp only; omega))

/-- Settles O39: the user page is stored and the zone's requested page reviewed. -/
theorem selectPage : Obligations.SelectPage := by
  intro s p
  refine ⟨fun h => ?_, fun q h => ?_⟩
  · refine completes_of_take (.selectPage p) (fun _ => rfl) rfl fun z => ?_
    simp only [takeCommand, takeSelectPage, toPage_none h]
  · refine completesAskingPages_of_take (.selectPage p) (fun _ => rfl) rfl fun z =>
      ⟨reviewPage z (setZone z { s.gain.zones.get z with userPage := q } s), ?_,
        movesPages_reviewPage (y := { s.gain.zones.get z with userPage := q }) rfl rfl rfl rfl rfl (.inl rfl)⟩
    simp only [takeCommand, takeSelectPage, toPage_some h]

theorem breakpointClamped_iff (w : BreakpointWord) : breakpointClamped w = true ↔
    ¬ (w.speed.toNat ≤ 400 ∧ -96 ≤ w.boost.toInt ∧ w.boost.toInt ≤ 96) := by
  unfold breakpointClamped
  rw [Bool.or_eq_true, clamp_changes (by decide), decide_eq_true_eq]
  omega

theorem anyBreakpoint_iff (points : List BreakpointWord) : points.any breakpointClamped = true ↔
    ¬ ∀ w ∈ points, w.speed.toNat ≤ 400 ∧ -96 ≤ w.boost.toInt ∧ w.boost.toInt ≤ 96 := by
  rw [List.any_eq_true]
  push Not
  exact exists_congr fun w => and_congr_right fun _ => (breakpointClamped_iff w).trans (by push Not; rfl)

/-- Settles O33: the checks in their order, and the zone's curve with what its boost, band and requested page become. -/
theorem loadSdvCurve : Obligations.LoadSdvCurve := by
  intro s points
  have curve : (points.map fun w : BreakpointWord => ({
      speed := min 400 w.speed.toNat, boost := max (-96) (min 96 w.boost.toInt),
      page := if w.pagePresent = true then some w.page.toFin else none } : Breakpoint)) = points.map toBreakpoint := rfl
  dsimp only
  rw [curve]
  refine ⟨fun h => ?_, fun low high h => ?_, fun low high h => ?_⟩
  · refine completes_of_take (.loadSdvCurve points) (fun _ => rfl) rfl fun z => ?_
    simp only [takeCommand, takeLoadSdvCurve, if_pos h]
  · refine completes_of_take (.loadSdvCurve points) (fun _ => rfl) rfl fun z => ?_
    have falls : speedsRise (points.map toBreakpoint) = false :=
      Bool.eq_false_iff.mpr fun e => h ((speedsRise_iff _).mp e)
    simp only [takeCommand, takeLoadSdvCurve]
    rw [if_neg (by omega), falls]
    rfl
  · have rises := (speedsRise_iff _).mpr h
    refine completesAskingPages_of_take (.loadSdvCurve points) (fun _ => rfl) rfl fun z =>
      ⟨reviewPage z (recomputeSpeed (inZone (setZone z (evalSdv s.speed.effective
        { s.gain.zones.get z with sdv := points.map toBreakpoint }) s) z) (setZone z (evalSdv s.speed.effective
        { s.gain.zones.get z with sdv := points.map toBreakpoint }) s)), ?_, ?_⟩
    · rw [← clampedIf_eq (anyBreakpoint_iff points)]
      simp only [takeCommand, takeLoadSdvCurve]
      rw [if_neg (by omega), rises]
      rfl
    · rw [recomputeSpeed_zone]
      exact movesPages_reviewPage (y := evalSdv s.speed.effective
        { s.gain.zones.get z with sdv := points.map toBreakpoint }) rfl rfl rfl rfl rfl (.inl rfl)

/-! ### The effective speed -/

theorem recomputeSpeed_allChannels : recomputeSpeed allChannels s =
    { s with gain.targets.speed := Vector.ofFn fun c : Chan =>
      speedTarget (s.gain.zones.get s.channels[c].zone) s.channels[c] } := by
  simp [recomputeSpeed, speedTargets, allChannels]

theorem takeEffective_eq : takeEffective s = reviewPages true true
    { s with gain.zones := { a := evalSdv s.speed.effective s.gain.zones.a, b := evalSdv s.speed.effective s.gain.zones.b },
             gain.targets.speed := Vector.ofFn fun c : Chan =>
               speedTarget (({ a := evalSdv s.speed.effective s.gain.zones.a,
                               b := evalSdv s.speed.effective s.gain.zones.b } : PerZone ZoneRecord).get s.channels[c].zone)
                 s.channels[c] } := by
  unfold takeEffective
  dsimp only
  rw [recomputeSpeed_allChannels]

/-- A speed target does not read the requested page. -/
theorem speedTarget_reviewed (zs : PerZone ZoneRecord) (z : Zone) (r : ChannelRecord) :
    speedTarget ((reviewedZones true true zs).get z) r = speedTarget (zs.get z) r := by cases z <;> rfl

/-- A new tracker record, with what the Gain Planner and the Page Scheduler make of a changed effective speed (R92,
R110). -/
theorem movesPages_speedEvent (r : SpeedTracker) : MovesPages s (s.withTracker r) (speedEvent r s) := by
  unfold State.withTracker speedEvent handEffective
  by_cases e : r.effective = s.speed.effective
  · rw [if_pos e, if_neg (show ¬ (setSpeed r s).speed.effective ≠ s.speed.effective from not_not.mpr e)]
    exact movesPages_refl rfl rfl (fun _ => rfl) fun _ => rfl
  · rw [if_neg e, if_pos (show (setSpeed r s).speed.effective ≠ s.speed.effective from e), takeEffective_eq]
    have moves := movesPages_reviewPages (s := s) (w :=
      { setSpeed r s with
        gain.zones := { a := evalSdv r.effective s.gain.zones.a, b := evalSdv r.effective s.gain.zones.b },
        gain.targets.speed := Vector.ofFn fun c : Chan =>
          speedTarget (({ a := evalSdv r.effective s.gain.zones.a,
                          b := evalSdv r.effective s.gain.zones.b } : PerZone ZoneRecord).get s.channels[c].zone)
            s.channels[c] })
      true true rfl rfl (fun z => by cases z <;> rfl) (fun z => by cases z <;> exact .inl rfl)
    refine cast (congrArg (MovesPages s · _) ?_) moves
    unfold State.atEffectiveSpeed
    simp only [← speedTarget_reviewed { a := evalSdv r.effective s.gain.zones.a, b := evalSdv r.effective s.gain.zones.b }]
    rfl

/-- Settles O31: a reading is ignored or judged, a policy stored and applied, and a changed effective speed handed on. -/
theorem speedCommands : Obligations.SpeedCommands := by
  refine ⟨fun s v => ⟨?_, ?_⟩, fun s p => ?_⟩
  · exact completes_of_take (.vehicleState v false) (fun _ => rfl) rfl fun _ => rfl
  · refine completesAskingPages_of_take (.vehicleState v true) (fun _ => rfl) rfl fun _ =>
      ⟨_, congrArg (done · _) (clampedIf_eq ?_), movesPages_speedEvent _⟩
    rw [decide_eq_true_eq]
    omega
  · refine completesAskingPages_of_take (.setSpeedPolicy p) (fun _ => rfl) rfl fun _ =>
      ⟨_, congrArg (done · _) (clampedIf_eq ?_), movesPages_speedEvent _⟩
    simp only [Bool.or_eq_true, decide_eq_true_eq]
    omega

/-! ### The staleness expiry -/

/-- A start of a fade reads and writes no notice. -/
theorem requestEnabled_notices (c : Chan) (r : Page) (n : NoticeUnit) :
    requestEnabled c r { s with notices := n } = { requestEnabled c r s with notices := n } := by
  have slot : freeSlot { s with notices := n } = freeSlot s := rfl
  unfold requestEnabled
  rw [slot]
  dsimp only
  cases s.sched.switch[c] with
  | steady p =>
    dsimp only
    split
    · rfl
    · cases freeSlot s <;> rfl
  | queued p q =>
    dsimp only
    split <;> rfl
  | fading p i =>
    dsimp only
    cases s.sched.slots[i] <;> rfl

theorem pageRequest_notices (c : Chan) (r : Page) (n : NoticeUnit) :
    pageRequest c r { s with notices := n } = { pageRequest c r s with notices := n } := by
  have on : enabled { s with notices := n } c = enabled s c := rfl
  unfold pageRequest
  rw [on, requestEnabled_notices]
  split
  · rfl
  · unfold requestDisabled
    dsimp only
    cases s.sched.switch[c] with
    | steady p =>
      dsimp only
      split <;> rfl
    | queued p q => rfl
    | fading p i => rfl

theorem askAll_notices (n : NoticeUnit) : askAll s { u with notices := n } = { askAll s u with notices := n } := by
  unfold askAll
  generalize List.finRange 24 = l
  suffices fold : ∀ t : State, l.foldl (fun t c =>
      if (u.gain.zones.get u.channels[c].zone).requestedPage = (s.gain.zones.get u.channels[c].zone).requestedPage
      then t else pageRequest c (u.gain.zones.get u.channels[c].zone).requestedPage t) { t with notices := n } =
      { l.foldl (fun t c =>
        if (u.gain.zones.get u.channels[c].zone).requestedPage = (s.gain.zones.get u.channels[c].zone).requestedPage
        then t else pageRequest c (u.gain.zones.get u.channels[c].zone).requestedPage t) t with notices := n } from fold u
  induction l with
  | nil => exact fun _ => rfl
  | cons c l ih =>
    intro t
    rw [List.foldl_cons, List.foldl_cons, ← ih, pageRequest_notices]
    congr 1
    split <;> rfl

/-- What page requests make of a state they make of it with other notices. -/
theorem MovesPages.notices (h : MovesPages s u t) {n m : NoticeUnit}
    (only : OnlyPagesMove { u with notices := n } { t with notices := m })
    (settled : SettledNotice { u with notices := n } { t with notices := m })
    (same : t = u → m = n) : MovesPages s { u with notices := n } { t with notices := m } where
  only := only
  switch := by rw [askAll_notices]; exact h.switch
  slots := by rw [askAll_notices]; exact h.slots
  queue := by rw [askAll_notices]; exact h.queue
  equaliser := by rw [askAll_notices]; exact h.equaliser
  same hz := by
    have e := h.same hz
    rw [same e, e]
  unasked := h.unasked
  onTheWay := h.onTheWay
  flags := h.flags
  notice := settled

theorem notify_speedLost (s : State) : notify .speedLost s =
    { s with notices.pending.speedLost := s.notices.pending.speedLost || s.notices.enabled.speedLost } := by
  unfold notify
  cases h : s.notices.enabled.speedLost <;> simp [hasKind, addKind, h]

/-- SPEED_LOST recorded after the page requests, or before them. -/
theorem MovesPages.speedLost (h : MovesPages s u t) : MovesPages s
    { u with notices.pending.speedLost := u.notices.pending.speedLost || u.notices.enabled.speedLost }
    (notify .speedLost t) := by
  rw [notify_speedLost]
  obtain ⟨pins, port, sources, channels, programs, coeffs, gain, ramp, speed, duck, output, enabled, roll, kinds,
    keeps, raises, ringOut, pending⟩ := h.only
  have lost : t.notices.pending.speedLost = u.notices.pending.speedLost := kinds .speedLost (by decide)
  refine h.notices ⟨pins, port, sources, channels, programs, coeffs, gain, ramp, speed, duck, output, enabled, roll,
    fun k hk => ?_, keeps, raises, ringOut, pending⟩ h.notice fun e => by rw [e]
  cases k with
  | speedLost => simp only [hasKind]; rw [lost, enabled]
  | relock => exact kinds .relock hk
  | ctrlLost => exact kinds .ctrlLost hk
  | clip => exact kinds .clip hk
  | pageSettled => exact absurd rfl hk
  | duckLine => exact kinds .duckLine hk

theorem withTracker_notices (r : SpeedTracker) : (s.withTracker r).notices = s.notices := by
  unfold State.withTracker
  split <;> rfl

/-- Settles O32: at its last step the counter expires, and the row finds nothing to do otherwise. -/
theorem stalenessExpiry : Obligations.StalenessExpiry := by
  intro s
  refine ⟨fun idle => ?_, fun hp hl fresh due => ?_⟩
  · have quiet : ¬ (listening s ∧ s.speed.fresh ∧ s.speed.counter = 1) := by
      rw [listening_iff]
      rintro ⟨⟨hp, hl⟩, fresh, due⟩
      simp_all
    exact congrArg Host.Outcome.next (if_neg quiet)
  · refine ⟨_, congrArg Host.Outcome.next (if_pos ⟨listening_iff.mpr ⟨hp, hl⟩, fresh, due⟩), ?_⟩
    have moves := (movesPages_speedEvent (s := s) (expire s.speed)).speedLost
    have lost : (s.withTracker (expire s.speed)).notices = s.notices := withTracker_notices _
    simp only [lost] at moves
    unfold expire at moves lost
    simp only [lost]
    exact moves

end Sys2Proof.Machine
end

section
/-! The lock loss (R149, R142, R125): what it leaves of the state. -/

namespace Sys2Proof.Machine

variable {s t u : State}

/-! ### The Page Scheduler's acts hand on no notice but by the settled flags -/

theorem eqComplete_notices (c : Chan) (p : Page) : (eqComplete c p s).notices = s.notices := by
  unfold eqComplete
  dsimp only
  split <;> simp [setTargetChain, setActiveChain]

theorem SchedAct.notices (a : SchedAct s t) : t.notices = s.notices := by
  cases a with
  | carry i f holds => exact eqComplete_notices (s := s) f.channel f.old
  | start => exact (startFade_asksOnly ..).notices
  | switch => exact (instantSwitch_asksOnly ..).notices
  | stay => rfl
  | join => rfl
  | wait => rfl
  | redirect => rfl

theorem SchedActs.notices (a : SchedActs s t) : t.notices = s.notices := by
  induction a with
  | refl => rfl
  | tail _ a ih => exact (SchedAct.notices a).trans ih

/-- The settled flags and their notice after acts of the Page Scheduler and the flags of the zones picked. -/
theorem SchedActs.settledNotice (acts : SchedActs s t) (a b : Bool) : SettledNotice s (resettleZones a b t) := by
  have notice := (resettleZones_spec a b t).2.2
  unfold SettledNotice at *
  rw [notice, SchedActs.notices acts, SchedActs.settled acts]

/-! ### The Ring Port's part does not enter the Page Scheduler's -/

theorem eqComplete_withPort (c : Chan) (p : Page) (x : RingPort) :
    eqComplete c p { s with port := x } = { eqComplete c p s with port := x } := by
  have target : (subLive (programOf s p c) s).equaliser.target[c] = s.equaliser.target[c] := by simp
  have target' : (subLive (programOf s p c) { s with port := x }).equaliser.target[c] = s.equaliser.target[c] := by simp
  unfold eqComplete
  dsimp only
  rw [show programOf { s with port := x } p c = programOf s p c from rfl, target, target']
  cases s.equaliser.target[c] <;> rfl

theorem endFade_withPort (f : Fade) (i : FadeSlot) (x : RingPort) :
    endFade f i { s with port := x } = { endFade f i s with port := x } := by
  unfold endFade carryOver
  dsimp only
  rw [eqComplete_withPort]
  cases f.next <;> rfl

theorem schedLoseChannel_withPort (c : Chan) (x : RingPort) :
    schedLoseChannel { s with port := x } c = { schedLoseChannel s c with port := x } := by
  unfold schedLoseChannel
  dsimp only
  cases s.sched.switch[c] with
  | steady p => rfl
  | queued p q => rfl
  | fading p i =>
    dsimp only
    cases s.sched.slots[i] with
    | none => rfl
    | some f => exact endFade_withPort f i x

theorem resettle_withPort (z : Zone) (x : RingPort) :
    resettle z { s with port := x } = { resettle z s with port := x } := by
  have now : isSettled { s with port := x } z = isSettled s z := rfl
  unfold resettle notifyIf notify
  rw [now]
  dsimp only
  split
  · split <;> rfl
  · rfl

theorem foldl_withPort (l : List Chan) (x : RingPort) : ∀ s : State,
    l.foldl schedLoseChannel { s with port := x } = { l.foldl schedLoseChannel s with port := x } := by
  induction l with
  | nil => exact fun _ => rfl
  | cons c l ih => intro s; rw [List.foldl_cons, List.foldl_cons, schedLoseChannel_withPort, ih]

theorem lost_withPort (x : RingPort) : zeroAllChains (schedLockLoss { s with port := x }) =
    { zeroAllChains (schedLockLoss s) with port := x } := by
  have all (u : State) : resettleZones true true u = resettle .b (resettle .a u) := rfl
  unfold schedLockLoss
  rw [foldl_withPort]
  generalize (List.finRange 24).foldl schedLoseChannel s = v
  dsimp only
  rw [all, all]
  have first := resettle_withPort .a x
    (s := { v with sched.slots := Vector.replicate 8 none, sched.queue := [] })
  dsimp only at first
  rw [first, resettle_withPort]
  rfl

/-! ### The state it leaves -/

/-- The state the lock loss leaves, before what was deferred takes effect. -/
def lockLost (s : State) : State := zeroAllChains (schedLockLoss (unlocked s).handsEmpty)

theorem lockLost_handsEmpty : (lockLost s).port = (unlocked s).handsEmpty.port := by
  unfold lockLost
  rw [zeroLost_port]

theorem lockLost_port : (lockLost s).port =
    { lock := .unlocked, misses := 0, held := Vector.replicate 8 0, delays := Vector.replicate 24 Delay.empty,
      assembler := .idle, sender := .quiet, address := s.port.address, twin := s.port.twin } :=
  by rw [lockLost_handsEmpty]; rfl

/-- The lock loss, and what the answer in hand had deferred (R149, R154, R159). -/
theorem loseLock_finish : (loseLock s).finish = (lockLost s).once s.port.sender.deferred := by
  rw [loseLock_eq, missSync_eq, show (unlocked s).port.sender = s.port.sender from rfl]
  cases s.port.sender.deferred with
  | nothing => simp only [applyDeferred, Turn.finish, State.once, lockLost, Bool.false_eq_true, if_false]
  | newAddress a tw =>
    have e := lost_withPort (s := (unlocked s).handsEmpty)
      { (unlocked s).handsEmpty.port with address := a, twin := tw }
    simp only [applyDeferred, Turn.finish, State.once, Bool.false_eq_true, if_false, lockLost_handsEmpty]
    rw [lockLost]
    exact e
  | deviceReset => exact applyDeferred_finish (s := lockLost s) (by rw [lockLost_port]) .deviceReset

theorem lockLost_only : OnlyPagesMove (unlocked s).handsEmpty (lockLost s) := by
  unfold lockLost
  exact onlyPages_schedLockLoss.trans onlyPages_zeroAllChains

theorem schedInv_unlocked (h : SchedInv s) : SchedInv (unlocked s).handsEmpty := h.of_same (.of_eq rfl rfl rfl)

theorem lost_sched (h : SchedInv s) :
    (lockLost s).sched = (resettleZones true true (allLost (unlocked s).handsEmpty)).sched := by
  rw [lockLost, zeroAllChains_sched, (schedInv_unlocked h).sound.laws.schedLockLoss_eq]

/-- Every channel is at rest on the page it was on its way to (R142). -/
theorem lost_switch (h : SchedInv s) (c : Chan) :
    (lockLost s).sched.switch[c] = .steady (destination s c) := by
  rw [lost_sched h, resettleZones_switch', (schedInv_unlocked h).sound.laws.allLost_switch]
  exact congrArg Switch.steady (destination_of_same rfl c)

theorem lost_rest (h : SchedInv s) (c : Chan) : Rests (lockLost s) c := by
  rw [Rests, lost_switch h]; rfl

theorem lost_sound (h : SchedInv s) : SchedInv (lockLost s) := by
  rw [lockLost]
  exact (schedInv_unlocked h).lockLoss

/-- The settled flags of both zones are evaluated anew, with their notice (R144). -/
theorem lost_flags (h : SchedInv s) : FlagsAfter (fun _ => True) s (lockLost s) ∧
    SettledNotice s (lockLost s) := by
  have notice := SchedActs.settledNotice (schedInv_unlocked h).sound.laws.allLost_acts true true
  have flags (z : Zone) : (lockLost s).sched.settled.get z = isSettled (lockLost s) z := by
    have same : isSettled (lockLost s) z = isSettled (allLost (unlocked s).handsEmpty) z := by
      have only := SchedActs.onlyPages (schedInv_unlocked h).sound.laws.allLost_acts
      refine isSettled_congr (by rw [lockLost_only.gain, only.gain])
        (fun c => by rw [lockLost_only.channels, only.channels]) fun c _ => ?_
      rw [lost_sched h, resettleZones_switch']
    rw [same, lost_sched h, resettleZones_settled, if_pos (by cases z <;> rfl)]
  have noticed : (lockLost s).notices = (resettleZones true true (allLost (unlocked s).handsEmpty)).notices := by
    rw [lockLost, zeroAllChains_notices, (schedInv_unlocked h).sound.laws.schedLockLoss_eq]
  refine ⟨fun z => ⟨fun _ => ?_, fun no => absurd trivial no⟩, ?_⟩
  · rw [flags, isSettled_iff]
  · unfold SettledNotice at *
    rw [noticed, lost_sched h]
    exact notice

/-- The chain states are those of the pages the channels rest on, their history zero (R125). -/
theorem lost_chains (h : SchedInv s) (g : EqualiserInv s) (c : Chan) :
    (∀ x ∈ (lockLost s).equaliser.active[c], x = Position.zero) ∧ (lockLost s).equaliser.target[c] = none ∧
      (lockLost s).equaliser.active[c].length = (programOf s (destination s c) c).length := by
  have sound : EqualiserInv (lockLost s) := by
    rw [lockLost]
    exact (EqualiserInv.of_same (t := (unlocked s).handsEmpty) g rfl rfl).lockLoss (schedInv_unlocked h)
  have programs : (lockLost s).equaliser.programs = s.equaliser.programs := lockLost_only.programs
  have length := sound.active c
  have target := sound.target c
  rw [lost_switch h] at length
  rw [targetPage, lost_switch h] at target
  refine ⟨?_, Option.map_eq_none_iff.mp target, ?_⟩
  · rw [lockLost, zeroAllChains_active_at]
    exact fun x hx => (List.mem_replicate.mp hx).2
  · rw [length]
    unfold programOf
    rw [programs]
    rfl

theorem noSync_lost (hl : s.port.lock = .locked) (hm : s.port.misses = 3) (o : Option OutFrame) :
    { noSync s with ringOut := o } =
      ({ lockLost s with ringOut := o } : State).once s.port.sender.deferred := by
  unfold noSync
  rw [hl]
  simp only
  rw [if_neg (by omega), loseLock_finish, once_out]

/-- Settles O7: the fourth missed SYNC leaves the state `lockLost`, and what the answer in hand had deferred. -/
theorem lockLossBringsRest : Obligations.LockLossBringsRest := by
  intro s i out hp hl hm hi h g
  have row : exec i s = .next (({ lockLost s with ringOut := out } : State).once s.port.sender.deferred) := by
    rw [← noSync_lost hl hm]
    rcases hi with ⟨rfl, rfl⟩ | ⟨f, rfl, rfl⟩
    · rw [exec_syncMissing_eq, hp]; rfl
    · rw [exec_syncBad_eq, hp]; rfl
  have only := lockLost_only (s := s)
  have slots := (lost_sound h).sound.laws.slots_of_rest (lost_rest h)
  obtain ⟨flags, notice⟩ := lost_flags h
  unfold FlagsAfter SettledNotice at *
  refine ⟨{ lockLost s with ringOut := out }, row, ?_⟩
  dsimp only
  rw [lockLost_port]
  refine ⟨rfl, rfl, rfl, rfl, rfl, rfl, fun k => by simp, fun c => by simp [Delay.empty], fun k => by rw [slots]; simp,
    (lost_sound h).sound.laws.queue_of_rest (lost_rest h), lost_switch h, lost_chains h g, flags, notice,
    only.programs, only.sources, only.channels, only.gain, only.ramp, only.speed, only.duck, only.output, only.pins,
    rfl, only.pending, only.enabled, only.roll, only.kinds⟩

end Sys2Proof.Machine
end

section
/-! The table of page requests (R132, R133). -/

namespace Sys2Proof.Machine

variable {s t u : State}

/-- What the start of a fade does to the Equaliser's chain states (R121). -/
theorem startFade_chains (c : Chan) (p q : Page) (i : FadeSlot) :
    (startFade c p q i s).equaliser.target =
      s.equaliser.target.set c (some (List.replicate (programOf s q c).length Position.zero)) := by
  unfold startFade eqStart setTargetChain
  rw [addLive_target]
  rfl

/-- What an instant switch does to the Equaliser's chain states (R123). -/
theorem instantSwitch_chains (c : Chan) (p q : Page) :
    (instantSwitch c p q s).equaliser.active =
      s.equaliser.active.set c (List.replicate (programOf s q c).length Position.zero) := by
  unfold instantSwitch eqSwitch setActiveChain
  rw [addLive_active, subLive_active]
  rfl

theorem instantSwitch_sched (c : Chan) (p q : Page) :
    (instantSwitch c p q s).sched = { s.sched with switch := s.sched.switch.set c (.steady q) } := by
  simp [instantSwitch, eqSwitch, setActiveChain, setSwitch]

/-- Settles O40: each row of the table is the branch of the request that the switch state and the slots pick. -/
theorem pageRequestTable : Obligations.PageRequestTable := by
  intro s c p q r
  refine ⟨fun on => ?_, fun off hs => ?_⟩
  · have asks : pageRequest c r s = requestEnabled c r s := if_pos (Option.isSome_iff_ne_none.mpr on)
    rw [asks]
    unfold requestEnabled
    refine ⟨fun hs e => ?_, fun hs ne i free below => ?_, fun hs ne full => ?_, fun hs e => ?_, fun hs ne => ?_,
      fun i f hs hf => ⟨fun e => ?_, fun ne => ?_⟩⟩ <;> rw [hs] <;> dsimp only
    · rw [if_pos e]
    · rw [if_neg ne, freeSlot_eq_some.mpr ⟨free, below⟩]
      have moved := startFade_moved (s := s) c p r i
      have only := onlyPages_startFade (s := s) c p r i
      exact ⟨moved.switch, moved.queue, moved.slots, startFade_chains .., startFade_active .., only.programs,
        fun n => ⟨startFade_live .., (only.coeffs n).1⟩, only.channels, only.gain, only.ramp,
        (startFade_asksOnly ..).notices, only.port⟩
    · rw [if_neg ne, freeSlot_eq_none.mpr full]
      rfl
    · rw [if_pos e]
      rfl
    · rw [if_neg ne]
      rfl
    · rw [hf]
      dsimp only
      rw [if_pos e]
      rfl
    · rw [hf]
      dsimp only
      rw [if_neg ne]
      rfl
  · have asks : pageRequest c r s = requestDisabled c r s := if_neg (by unfold enabled; rw [off]; decide)
    rw [asks]
    unfold requestDisabled
    rw [hs]
    refine ⟨fun e => if_pos e, fun ne => ?_⟩
    dsimp only
    rw [if_neg ne]
    have only := onlyPages_instantSwitch (s := s) c p r
    exact ⟨instantSwitch_sched .., instantSwitch_chains .., instantSwitch_target .., only.programs,
      fun n => instantSwitch_live .., only.channels, only.gain, only.ramp, (instantSwitch_asksOnly ..).notices,
      only.port⟩

end Sys2Proof.Machine
end

section
/-! The grant of a free slot, the completion of a fade, and the rows that make them (R134 to R136, R144). -/

namespace Sys2Proof.Machine

variable {s t u : State} {i : FadeSlot} {f : Fade}

/-! ### Starts and grants -/

theorem startFade_starts (d : Chan) (p q : Page) (i : FadeSlot) (rest : List Chan) :
    Starts s i d p q (startFade d p q i (setQueue rest s)) := by
  have moved := start_moved (s := s) d p q i rest
  refine ⟨by rw [moved.at, if_pos rfl], by rw [moved.slots, get_set, if_pos rfl]; rfl, ?_⟩
  rw [startFade_target, if_pos rfl]
  rfl

/-- A start reads the zones, the channel records and the programs, and is in the switch states, slots and target chain
states. -/
theorem Starts.congr {d : Chan} {p q : Page} (h : Starts s i d p q t) {s' t' : State} (zones : s'.gain.zones = s.gain.zones)
    (zone : s'.channels[d].zone = s.channels[d].zone) (programs : s'.equaliser.programs = s.equaliser.programs)
    (switch : t'.sched.switch = t.sched.switch) (slots : t'.sched.slots = t.sched.slots)
    (target : t'.equaliser.target = t.equaliser.target) : Starts s' i d p q t' := by
  refine ⟨by rw [switch]; exact h.switch, by rw [slots, zones, zone]; exact h.slot, ?_⟩
  rw [target, programOf, programs]
  exact h.target

/-- From `s` to `t` slot `i` is granted to the head of the queue, if there is one, and nothing else moves (R136 step
3). -/
structure Granted (s : State) (i : FadeSlot) (t : State) : Prop where
  others : ∀ j : FadeSlot, j ≠ i → t.sched.slots[j] = s.sched.slots[j]
  free : s.sched.queue = [] → t = s
  head : ∀ (d : Chan) (rest : List Chan) (p q : Page), s.sched.queue = d :: rest → s.sched.switch[d] = .queued p q →
    Starts s i d p q t ∧ t.sched.queue = rest
  voicing : ∀ d : Chan, s.sched.queue.head? ≠ some d →
    t.sched.switch[d] = s.sched.switch[d] ∧ t.equaliser.target[d] = s.equaliser.target[d]
  active : t.equaliser.active = s.equaliser.active
  live : ∀ n : SectionId, (t.equaliser.sections[n]).live = (s.equaliser.sections[n]).live + headCount s n

theorem headCount_nil (hq : s.sched.queue = []) (n : SectionId) : headCount s n = 0 := by
  unfold headCount; rw [hq]; rfl

theorem headCount_cons {d : Chan} {rest : List Chan} {p q : Page} (hq : s.sched.queue = d :: rest)
    (hd : s.sched.switch[d] = .queued p q) (n : SectionId) : headCount s n = (programOf s q d).count n := by
  unfold headCount
  rw [hq, List.head?_cons, Option.bind_some, hd]
  rfl

theorem SchedLaws.grantHead_granted (h : SchedLaws s) (i : FadeSlot) : Granted s i (grantHead i s) := by
  cases hq : s.sched.queue with
  | nil =>
    rw [grantHead_nil hq]
    exact ⟨fun _ _ => rfl, fun _ => rfl, (by rw [hq]; rintro _ _ _ _ ⟨⟩), fun _ _ => ⟨rfl, rfl⟩, rfl,
      fun n => by rw [headCount_nil hq]; rfl⟩
  | cons d rest =>
    obtain ⟨p, q, hd⟩ := h.head_waits hq
    have moved := start_moved (s := s) d p q i rest
    rw [grantHead_cons hq hd]
    refine ⟨fun j hj => by rw [moved.slots, get_set, if_neg hj], (by rw [hq]; rintro ⟨⟩), ?_, fun e he => ?_,
      startFade_active .., fun n => ?_⟩
    · intro d' rest' p' q' hq' hd'
      rw [hq] at hq'
      injection hq' with same tail
      subst same tail
      rw [hd] at hd'
      injection hd' with old new
      subst old new
      exact ⟨startFade_starts .., moved.queue⟩
    · have ne : e ≠ d := fun e' => he (by rw [hq, e']; rfl)
      exact ⟨by rw [moved.at, if_neg ne], by rw [startFade_target, if_neg ne]; rfl⟩
    · rw [startFade_live, headCount_cons hq hd]
      rfl

/-! ### The state a completion grants its slot in -/

theorem requeue_equaliser (f : Fade) : (requeue f s).equaliser = s.equaliser := by
  unfold requeue; cases f.next <;> rfl

theorem carried_active (d : Chan) : (carried f i s).equaliser.active[d] =
    if d = f.channel then (s.equaliser.target[f.channel]).getD s.equaliser.active[f.channel]
    else s.equaliser.active[d] := by
  rw [carried, requeue_equaliser, carryOver_active]

theorem carried_target (d : Chan) : (carried f i s).equaliser.target[d] =
    if d = f.channel then none else s.equaliser.target[d] := by
  rw [carried, requeue_equaliser, carryOver_target]

theorem carried_live (n : SectionId) : ((carried f i s).equaliser.sections[n]).live =
    (s.equaliser.sections[n]).live - (programOf s f.old f.channel).count n := by
  rw [carried, requeue_equaliser, carryOver_live]

/-- The switch state the completed fade's channel goes on to: STEADY on its page, or queued for its next target. -/
theorem carried_switch (d : Chan) : (carried f i s).sched.switch[d] =
    if d = f.channel then (f.next.elim (.steady f.target) fun r => .queued f.target r) else s.sched.switch[d] := by
  unfold carried
  cases hn : f.next with
  | none => rw [requeue_none hn, (carry_moved f i).at]; rfl
  | some r =>
    rw [(requeue_moved hn).at, (carry_moved f i).at]
    split <;> rfl

theorem SchedInv.carried_acts (h : SchedInv s) (hf : s.sched.slots[i] = some f) : SchedActs s (carried f i s) :=
  h.sound.laws.carried_acts hf h.sound.resting

theorem SchedInv.carried_only (h : SchedInv s) (hf : s.sched.slots[i] = some f) : OnlyPagesMove s (carried f i s) :=
  SchedActs.onlyPages (h.carried_acts hf)

/-- The channel of a fade is not in the queue. -/
theorem SchedLaws.fading_unqueued (h : SchedLaws s) (hf : s.sched.slots[i] = some f) : f.channel ∉ s.sched.queue := by
  rw [h.queued, h.occupied i f hf]
  simp [Switch.waitingFor]

/-- The head of the queue a completion finds: the one there was, or else the completed fade's own channel. -/
theorem carried_head (d : Chan) : (carried f i s).sched.queue.head? = some d ↔
    s.sched.queue.head? = some d ∨ s.sched.queue = [] ∧ f.next ≠ none ∧ d = f.channel := by
  rw [carried_queue]
  cases s.sched.queue with
  | nil => by_cases hn : f.next = none <;> simp [hn, eq_comm]
  | cons e rest => simp

/-- The appearances of a section in the program that the grant at a completion starts. -/
theorem SchedInv.carried_headCount (h : SchedInv s) (hf : s.sched.slots[i] = some f) (n : SectionId) :
    headCount (carried f i s) n =
      if s.sched.queue = [] then (f.next.map fun r => (programOf s r f.channel).count n).getD 0 else headCount s n := by
  have programs (p : Page) (d : Chan) : programOf (carried f i s) p d = programOf s p d := by
    unfold programOf; rw [(h.carried_only hf).programs]
  have queue := carried_queue (s := s) f i
  cases hq : s.sched.queue with
  | nil =>
    rw [if_pos rfl]
    rw [hq] at queue
    cases hn : f.next with
    | none => rw [headCount_nil (by rw [queue, hn]; rfl)]; rfl
    | some r =>
      rw [headCount_cons (d := f.channel) (rest := []) (p := f.target) (q := r) (by rw [queue, hn]; rfl)
        (by rw [carried_switch, if_pos rfl, hn]; rfl), programs]
      rfl
  | cons d rest =>
    obtain ⟨p, q, hd⟩ := h.sound.laws.head_waits hq
    have ne : d ≠ f.channel := fun e => h.sound.laws.fading_unqueued hf (by rw [hq, e]; exact List.mem_cons_self)
    rw [if_neg (by simp), headCount_cons hq hd, ← programs]
    rw [hq] at queue
    exact headCount_cons queue (by rw [carried_switch, if_neg ne, hd]) n

/-! ### Flags -/

theorem flagsAfter_resettleZones (h : t.sched.settled = s.sched.settled) (a b : Bool) :
    FlagsAfter (fun z => pick a b z = true) s (resettleZones a b t) := by
  intro z
  rw [resettleZones_settled]
  refine ⟨fun hz => ?_, fun hz => ?_⟩
  · rw [if_pos hz, ← isSettled_resettleZones, isSettled_iff]
  · rw [if_neg hz, h]

theorem FlagsAfter.congr {p q : Zone → Prop} (h : FlagsAfter p s t) (e : ∀ z, p z ↔ q z) : FlagsAfter q s t :=
  fun z => ⟨fun hz => (h z).1 ((e z).mpr hz), fun hz => (h z).2 fun hp => hz ((e z).mp hp)⟩

/-- The settled flag of one zone after an event that leaves the flags and the notices alone, with its notice (R144). -/
theorem settles_resettle (hs : t.sched.settled = s.sched.settled) (hn : t.notices = s.notices) (z : Zone) :
    FlagsAfter (fun y => y = z) s (resettle z t) ∧ SettledNotice s (resettle z t) := by
  rw [resettle_eq]
  refine ⟨(flagsAfter_resettleZones hs _ _).congr fun y => ?_, ?_⟩
  · rw [← not_iff_not, Bool.not_eq_true, pick_beq]
  · have notice := (resettleZones_spec (z == .a) (z == .b) t).2.2
    unfold SettledNotice at *
    rw [notice, hs, hn]

end Sys2Proof.Machine
end

section
/-! FADE_COMPLETE and QUEUE_GRANT (R135, R136). -/

namespace Sys2Proof.Machine

variable {s t u : State} {i : FadeSlot} {f : Fade}

/-! ### A completion -/

theorem SchedInv.carried_laws (h : SchedInv s) (hf : s.sched.slots[i] = some f) : SchedLaws (carried f i s) :=
  SchedActs.laws (h.carried_acts hf) h.sound.laws

theorem complete_granted (h : SchedInv s) (hf : s.sched.slots[i] = some f) :
    Granted (carried f i s) i (completeFade i s) := by
  rw [completeFade_eq hf]
  exact (h.carried_laws hf).grantHead_granted i

/-- The completed fade's channel keeps what the completion gave it, where it is not granted the slot again. -/
theorem complete_own (h : SchedInv s) (hf : s.sched.slots[i] = some f)
    (hn : f.next = none ∨ s.sched.queue ≠ []) :
    (completeFade i s).sched.switch[f.channel] = f.next.elim (.steady f.target) (fun r => .queued f.target r) ∧
      (completeFade i s).equaliser.target[f.channel] = none := by
  obtain ⟨switch, target⟩ := (complete_granted h hf).voicing f.channel fun e => by
    rcases carried_head f.channel |>.mp e with e | ⟨hq, hne, -⟩
    · exact h.sound.laws.fading_unqueued hf (List.mem_of_head? e)
    · exact hn.elim hne fun hq' => hq' hq
  rw [switch, target, carried_switch, if_pos rfl, carried_target, if_pos rfl]
  exact ⟨rfl, rfl⟩

theorem complete_others (h : SchedInv s) (hf : s.sched.slots[i] = some f) :
    OthersStay s f.channel True (completeFade i s) where
  voicing d hd head := by
    obtain ⟨switch, target⟩ := (complete_granted h hf).voicing d fun e => by
      rcases carried_head d |>.mp e with e | ⟨-, -, e⟩
      · exact head trivial e
      · exact hd e
    rw [switch, target, carried_switch, if_neg hd, carried_target, if_neg hd]
    exact ⟨rfl, rfl⟩
  active d hd := by rw [(complete_granted h hf).active, carried_active, if_neg hd]

theorem complete_live (h : SchedInv s) (g : EqualiserInv s) (hf : s.sched.slots[i] = some f)
    (n : SectionId) :
    ((completeFade i s).equaliser.sections[n]).live + (programOf s f.old f.channel).count n =
      (s.equaliser.sections[n]).live +
        if s.sched.queue = [] then (f.next.map fun r => (programOf s r f.channel).count n).getD 0
        else headCount s n := by
  have enough : (programOf s f.old f.channel).count n ≤ (s.equaliser.sections[n]).live := by
    have := g.laws.live_ge n f.channel
    rw [h.sound.laws.course_fading hf] at this
    exact (Nat.le_add_right _ _).trans this
  rw [(complete_granted h hf).live, carried_live, h.carried_headCount hf]
  omega

/-- A start out of the state the completion leaves is one out of the state before it. -/
theorem SchedInv.carried_starts (h : SchedInv s) (hf : s.sched.slots[i] = some f) {d : Chan} {p q : Page}
    (start : Starts (carried f i s) i d p q t) : Starts s i d p q t := by
  have only := h.carried_only hf
  exact start.congr (by rw [only.gain]) (by rw [only.channels]) only.programs.symm rfl rfl rfl

/-- The slot goes to the head of the queue, or to the channel itself where it alone is queued again, or is free. -/
theorem complete_alone (h : SchedInv s) (hf : s.sched.slots[i] = some f) (hq : s.sched.queue = []) :
    (completeFade i s).sched.queue = [] ∧ (f.next = none → (completeFade i s).sched.slots[i] = none) ∧
      ∀ r ∈ f.next, Starts s i f.channel f.target r (completeFade i s) := by
  have granted := complete_granted h hf
  have queue := carried_queue (s := s) f i
  rw [hq] at queue
  cases hn : f.next with
  | none =>
    have stays := granted.free (by rw [queue, hn]; rfl)
    rw [stays, queue, hn]
    exact ⟨rfl, fun _ => carried_slot f i, fun r hr => (by cases hr)⟩
  | some r =>
    obtain ⟨start, left⟩ := granted.head f.channel [] f.target r (by rw [queue, hn]; rfl)
      (by rw [carried_switch, if_pos rfl, hn]; rfl)
    refine ⟨left, fun e => (by cases e), fun r' hr => ?_⟩
    cases hr
    exact h.carried_starts hf start

theorem complete_granting (h : SchedInv s) (hf : s.sched.slots[i] = some f) {d : Chan} {rest : List Chan}
    {p q : Page} (hq : s.sched.queue = d :: rest) (hd : s.sched.switch[d] = .queued p q) :
    Starts s i d p q (completeFade i s) ∧
      (completeFade i s).sched.queue = rest ++ if f.next = none then [] else [f.channel] := by
  have ne : d ≠ f.channel := fun e => h.sound.laws.fading_unqueued hf (by rw [hq, e]; exact List.mem_cons_self)
  have queue := carried_queue (s := s) f i
  rw [hq] at queue
  obtain ⟨start, left⟩ := (complete_granted h hf).head d _ p q queue (by rw [carried_switch, if_neg ne, hd])
  exact ⟨h.carried_starts hf start, left⟩

/-! ### The rows -/

theorem exec_fadeComplete_idle
    (idle : s.pins.reset = true ∨ s.port.lock ≠ .locked ∨ ∀ f ∈ s.sched.slots[i], f.k + 1 ≠ f.length) :
    exec (.fadeComplete i) s = .next s := by
  simp only [exec, execFadeComplete]
  cases hf : s.sched.slots[i] with
  | none => rfl
  | some f =>
    dsimp only
    rw [if_neg]
    rintro ⟨on, last⟩
    obtain ⟨pin, lock⟩ := listening_iff.mp on
    rcases idle with e | e | e
    · rw [pin] at e; cases e
    · exact e lock
    · exact e f hf last

theorem exec_queueGrant_idle
    (idle : s.pins.reset = true ∨ s.port.lock ≠ .locked ∨ s.sched.queue = [] ∨ s.sched.slots[i] ≠ none) :
    exec (.queueGrant i) s = .next s := by
  simp only [exec, execQueueGrant]
  cases hq : s.sched.queue with
  | nil => rfl
  | cons d rest =>
    cases hf : s.sched.slots[i] with
    | some f => rfl
    | none =>
      dsimp only
      rw [if_neg]
      intro on
      obtain ⟨pin, lock⟩ := listening_iff.mp on
      rcases idle with e | e | e | e
      · rw [pin] at e; cases e
      · exact e lock
      · rw [hq] at e; cases e
      · exact e hf

theorem equaliser_resettle (z : Zone) : (resettle z s).equaliser = s.equaliser := by rw [resettle_eq, equaliser_resettleZones]

/-- Settles O41: a due fade completes, a free slot is granted, and the zone's settled flag follows. -/
theorem fadeCompleteAndGrant : Obligations.FadeCompleteAndGrant := by
  intro s i
  dsimp only
  refine ⟨fun f hp hl hf last h g => ?_, exec_fadeComplete_idle, fun d rest p q hp hl hi hq hd => ?_,
    exec_queueGrant_idle⟩
  · have row : exec (.fadeComplete i) s = .next (resettle s.channels[f.channel].zone (completeFade i s)) := by
      simp only [exec, execFadeComplete]
      rw [hf]
      exact congrArg Host.Outcome.next (if_pos ⟨listening_iff.mpr ⟨hp, hl⟩, last⟩)
    have acts := h.sound.completeFade_acts i
    obtain ⟨flags, notice⟩ := settles_resettle (SchedActs.settled acts) (SchedActs.notices acts) s.channels[f.channel].zone
    have only := (SchedActs.onlyPages acts).trans (onlyPages_resettle s.channels[f.channel].zone)
    have same := sameSched_resettle (s := completeFade i s) s.channels[f.channel].zone
    have eq := equaliser_resettle (s := completeFade i s) s.channels[f.channel].zone
    have granted := complete_granted h hf
    have others := complete_others h hf
    refine ⟨_, row, ⟨fun j hj => ?_, only.coeffs, only.programs, only.channels, only.sources, only.gain, only.ramp,
      only.speed, only.port, only.output, only.duck, only.pins, only.ringOut, only.enabled, only.roll, only.pending⟩,
      ⟨flags, notice, only.kinds⟩, fun l hl => ?_, ⟨?_, ?_⟩, fun n => ?_, fun hn => ?_, fun hq => ?_,
      fun d rest p q hq hd => ?_⟩
    · rw [same.slots, granted.others j hj, carried_slots, get_set, if_neg hj]
    · rw [eq, granted.active, carried_active, if_pos rfl, hl]
      rfl
    · rw [same.switch, eq]; exact others.voicing
    · rw [eq]; exact others.active
    · rw [eq]; exact complete_live h g hf n
    · rw [same.switch, eq]
      have own := complete_own h hf (.inl hn)
      rwa [hn] at own
    · rw [same.queue, same.slots]
      obtain ⟨queue, free, start⟩ := complete_alone h hf hq
      exact ⟨queue, free, fun r hr => (start r hr).congr rfl rfl rfl same.switch same.slots (by rw [eq])⟩
    · rw [same.queue, same.switch, eq]
      obtain ⟨start, queue⟩ := complete_granting h hf hq hd
      obtain ⟨switch, target⟩ := complete_own h hf (.inr (by rw [hq]; exact List.cons_ne_nil _ _))
      refine ⟨start.congr rfl rfl rfl same.switch same.slots (by rw [eq]), fun hn => ?_, fun r hr => ?_⟩
      · rw [queue, hn, if_pos rfl, List.append_nil]
      · rw [queue, switch, target, hr, if_neg (Option.some_ne_none r)]
        exact ⟨rfl, rfl, rfl⟩
  · have row : exec (.queueGrant i) s = .next (resettle s.channels[d].zone (startFade d p q i (setQueue rest s))) := by
      simp only [exec, execQueueGrant]
      rw [hq, hi]
      dsimp only
      rw [if_pos (listening_iff.mpr ⟨hp, hl⟩), grantHead_cons hq hd]
    have started := startFade_asksOnly (s := setQueue rest s) d p q i
    have moved := start_moved (s := s) d p q i rest
    obtain ⟨flags, notice⟩ := settles_resettle (s := s) started.settled started.notices s.channels[d].zone
    have only := ((onlyPages_setQueue (s := s) rest).trans (onlyPages_startFade d p q i)).trans
      (onlyPages_resettle s.channels[d].zone)
    have same := sameSched_resettle (s := startFade d p q i (setQueue rest s)) s.channels[d].zone
    have eq := equaliser_resettle (s := startFade d p q i (setQueue rest s)) s.channels[d].zone
    refine ⟨_, row, ⟨fun j hj => ?_, only.coeffs, only.programs, only.channels, only.sources, only.gain, only.ramp,
      only.speed, only.port, only.output, only.duck, only.pins, only.ringOut, only.enabled, only.roll, only.pending⟩,
      ⟨flags, notice, only.kinds⟩,
      (startFade_starts d p q i rest).congr rfl rfl rfl same.switch same.slots (by rw [eq]), ?_, ⟨fun e he _ => ?_,
      fun e _ => ?_⟩, ?_, fun n => ?_⟩
    · rw [same.slots, moved.slots, get_set, if_neg hj]
    · rw [same.queue, moved.queue]
    · rw [same.switch, eq, moved.at, if_neg he, startFade_target, if_neg he]
      exact ⟨rfl, rfl⟩
    · rw [eq, startFade_active]; rfl
    · rw [eq, startFade_active]; rfl
    · rw [eq, startFade_live]; rfl

end Sys2Proof.Machine
end

section
/-! The page acts of a channel load that enables or disables its channel (R139 to R141): the channel comes to rest on a
page, gives up its place in the queue and its slot, and the slot goes to the head of the queue. -/

namespace Sys2Proof.Machine

variable {s t u v : State} {c : Chan} {p q : Page}

/-! ### The chain states of the other channels -/

theorem instantSwitch_chains_others {d : Chan} (hd : d ≠ c) :
    (instantSwitch c p q s).equaliser.active[d] = s.equaliser.active[d] ∧
      (instantSwitch c p q s).equaliser.target[d] = s.equaliser.target[d] :=
  ⟨by rw [instantSwitch_active, if_neg hd], by rw [instantSwitch_target]⟩

theorem SchedLaws.lose_chains (h : SchedLaws s) {d : Chan} (hd : d ≠ c) :
    (schedLoseChannel s c).equaliser.active[d] = s.equaliser.active[d] ∧
      (schedLoseChannel s c).equaliser.target[d] = s.equaliser.target[d] := by
  unfold schedLoseChannel
  split
  case h_1 => exact ⟨rfl, rfl⟩
  case h_2 => exact instantSwitch_chains_others (s := leaveQueue c s) hd
  case h_3 p i hc =>
    obtain ⟨f, hf, rfl, -⟩ := h.fade_of hc
    rw [hf]
    have carry : (carryOver f i s).equaliser.active[d] = s.equaliser.active[d] ∧
        (carryOver f i s).equaliser.target[d] = s.equaliser.target[d] :=
      ⟨by rw [carryOver_active, if_neg hd], by rw [carryOver_target, if_neg hd]⟩
    dsimp only [endFade]
    cases f.next with
    | none => exact carry
    | some r =>
      obtain ⟨active, target⟩ := instantSwitch_chains_others (s := carryOver f i s) (p := f.target) (q := r) hd
      exact ⟨active.trans carry.1, target.trans carry.2⟩

theorem requestDisabled_steady (hs : s.sched.switch[c] = .steady p) (r : Page) :
    requestDisabled c r s = if r = p then s else instantSwitch c p r s := by
  unfold requestDisabled; rw [hs]

/-! ### Live counts -/

/-- Where one channel changes what it runs, the live counts change as the appearances in it do (R120). -/
theorem EqLaws.live_change (hs : EqLaws s) (ht : EqLaws t) (others : OthersOn c s t)
    (programs : t.equaliser.programs = s.equaliser.programs) (n : SectionId) :
    (t.equaliser.sections[n]).live + appearancesIn s n c = (s.equaliser.sections[n]).live + appearancesIn t n c := by
  rw [hs.live, ht.live]
  exact appearances_change fun d hd => by
    rw [appearancesIn_eq, appearancesIn_eq, others d hd, appearsOn_congr programs]

theorem appearancesIn_steady (hs : s.sched.switch[c] = .steady p) (n : SectionId) :
    appearancesIn s n c = (programOf s p c).count n := by
  rw [appearancesIn_eq, course_of_slot_none (by rw [hs]; rfl), hs]
  rfl

/-! ### A channel brought to rest -/

/-- From `s` to `v` the channel `c` has come to rest on page `p`: it has left the queue, and the slot it held, if any, has
gone to the head of the queue (R139, R136 step 3). -/
structure Rerouted (s : State) (c : Chan) (p : Page) (v : State) : Prop where
  switch : v.sched.switch[c] = .steady p
  only : OnlyPagesMove s v
  acts : SchedLaws s → SchedLaws v
  eqLaws : EqLaws s → EqLaws v
  others : OthersStay s c ((s.sched.switch[c]).slot ≠ none) v
  plain : (s.sched.switch[c]).slot = none → v.sched.slots = s.sched.slots ∧ v.sched.queue = s.sched.queue.erase c
  passes : ∀ i : FadeSlot, (s.sched.switch[c]).slot = some i → SlotPasses s i v
  live : EqLaws s → ∀ n : SectionId, (v.equaliser.sections[n]).live + appearancesIn s n c =
    (s.equaliser.sections[n]).live + (programOf s p c).count n +
      if (s.sched.switch[c]).slot = none then 0 else headCount s n

theorem programOf_only (g : OnlyPagesMove s t) (p : Page) (d : Chan) : programOf t p d = programOf s p d := by
  unfold programOf; rw [g.programs]

theorem SchedLaws.rerouted_refl (h : SchedLaws s) (hs : s.sched.switch[c] = .steady p) : Rerouted s c p s := by
  have slot : (s.sched.switch[c]).slot = none := by rw [hs]; rfl
  refine ⟨hs, .refl s, id, id, ⟨fun _ _ _ => ⟨rfl, rfl⟩, fun _ _ => rfl⟩, fun _ => ⟨rfl, ?_⟩, fun i hi => ?_,
    fun _ n => ?_⟩
  · rw [List.erase_of_not_mem]
    rw [h.queued, hs]
    simp [Switch.waitingFor]
  · rw [slot] at hi; cases hi
  · rw [if_pos slot, appearancesIn_steady hs]; rfl

/-- A slot that passes still does after an instant switch of a channel at rest. -/
theorem SlotPasses.instantSwitch {i : FadeSlot} (h : SlotPasses s i v) (hc : v.sched.switch[c] = .steady p) (q : Page) :
    SlotPasses s i (instantSwitch c p q v) := by
  have moved := instantSwitch_moved (s := v) c p q
  refine ⟨fun j hj => by rw [moved.slots]; exact h.others j hj, fun hq => by rw [moved.slots, moved.queue]; exact h.free hq,
    fun d rest p' q' hq hd => ?_⟩
  obtain ⟨start, queue⟩ := h.head d rest p' q' hq hd
  have ne : d ≠ c := by
    rintro rfl
    rw [start.switch] at hc
    cases hc
  refine ⟨⟨?_, by rw [moved.slots]; exact start.slot, ?_⟩, moved.queue.trans queue⟩
  · rw [moved.at, if_neg ne]; exact start.switch
  · rw [instantSwitch_target]; exact start.target

/-- An instant switch of the channel at rest, to the page a load asks for (R133). -/
theorem Rerouted.redirect (h : Rerouted s c p v) (hs : SchedLaws s) (q : Page) :
    Rerouted s c q (requestDisabled c q v) := by
  have acts := (h.acts hs).requestDisabled_acts c q
  rw [requestDisabled_steady h.switch] at acts ⊢
  split at acts
  · rename_i e; rw [if_pos e, e]; exact h
  · rename_i e
    rw [if_neg e]
    have moved := instantSwitch_moved (s := v) c p q
    have switch : (instantSwitch c p q v).sched.switch[c] = .steady q := instantSwitch_switch ..
    have only := onlyPages_instantSwitch (s := v) c p q
    refine ⟨switch, h.only.trans only, fun hs => SchedActs.laws acts (h.acts hs),
      fun g => SchedActs.eqLaws acts (h.acts hs) (h.eqLaws g), ⟨fun d hd head => ?_, fun d hd => ?_⟩,
      fun slot => by rw [moved.slots, moved.queue]; exact h.plain slot,
      fun i hi => (h.passes i hi).instantSwitch h.switch q, fun g n => ?_⟩
    · obtain ⟨-, target⟩ := instantSwitch_chains_others (s := v) (p := p) (q := q) hd
      rw [moved.at, if_neg hd, target]
      exact h.others.voicing d hd head
    · obtain ⟨active, -⟩ := instantSwitch_chains_others (s := v) (p := p) (q := q) hd
      rw [active]
      exact h.others.active d hd
    · have sound := h.eqLaws g
      have before := h.live g n
      have change := sound.live_change (SchedActs.eqLaws acts (h.acts hs) sound) (instantSwitch_others c p q)
        only.programs n
      rw [appearancesIn_steady h.switch, appearancesIn_steady switch, programOf_only only, programOf_only h.only,
        programOf_only h.only] at change
      omega

/-- The channel brought to rest, its slot not yet granted. -/
theorem SchedLaws.lose_rerouted (h : SchedLaws s) (slot : (s.sched.switch[c]).slot = none) :
    Rerouted s c (destination s c) (schedLoseChannel s c) := by
  obtain ⟨slots, moved, -, keeps⟩ := h.lose_moved c
  have acts := h.schedLoseChannel_acts c
  have only := SchedActs.onlyPages acts
  have switch := h.lose_switch c
  refine ⟨switch, only, SchedActs.laws acts, SchedActs.eqLaws acts h, ⟨fun d hd _ => ?_, fun d hd => (h.lose_chains hd).1⟩,
    fun _ => ⟨?_, moved.queue⟩, fun i hi => ?_, fun g n => ?_⟩
  · rw [moved.at, if_neg hd]
    exact ⟨rfl, (h.lose_chains hd).2⟩
  · rw [moved.slots]
    ext j hj : 1
    exact keeps ⟨j, hj⟩ (by rw [slot]; simp)
  · rw [slot] at hi; cases hi
  · have change := g.live_change (SchedActs.eqLaws acts h g) (h.lose_others c) only.programs n
    rw [appearancesIn_steady switch, programOf_only only] at change
    rw [if_pos slot, change]
    rfl

section

variable {i : FadeSlot} (h : SchedLaws s) (slot : (s.sched.switch[c]).slot = some i)
include h slot

theorem SchedLaws.fading_out : c ∉ s.sched.queue := by
  rw [h.queued]
  cases hc : s.sched.switch[c] <;> rw [hc] at slot <;> simp_all [Switch.slot, Switch.waitingFor]

/-- The queue stands where a channel in a slot is brought to rest. -/
theorem SchedLaws.lose_queue_same : (schedLoseChannel s c).sched.queue = s.sched.queue := by
  rw [h.lose_queue, List.erase_of_not_mem (h.fading_out slot)]

/-- A waiting channel waits on where a channel in a slot is brought to rest. -/
theorem SchedLaws.lose_waiting {d : Chan} (hd : d ∈ s.sched.queue) :
    (schedLoseChannel s c).sched.switch[d] = s.sched.switch[d] :=
  course_switch (h.lose_others c d fun e => h.fading_out slot (e ▸ hd))

theorem SchedLaws.lose_headCount (n : SectionId) : headCount (schedLoseChannel s c) n = headCount s n := by
  have queue := h.lose_queue_same slot
  have only := SchedActs.onlyPages (h.schedLoseChannel_acts c)
  cases hq : s.sched.queue with
  | nil => rw [headCount_nil (queue.trans hq), headCount_nil hq]
  | cons d rest =>
    obtain ⟨p, q, hd⟩ := h.head_waits hq
    rw [headCount_cons hq hd, headCount_cons (queue.trans hq)
      ((h.lose_waiting slot (by rw [hq]; exact List.mem_cons_self)).trans hd), programOf_only only]

/-- The slot of a fading channel brought to rest passes to the head of the queue. -/
theorem SchedLaws.lose_passes : SlotPasses s i (grantHead i (schedLoseChannel s c)) := by
  obtain ⟨slots, moved, -, keeps⟩ := h.lose_moved c
  have acts := h.schedLoseChannel_acts c
  have only := SchedActs.onlyPages acts
  have granted := (SchedActs.laws acts h).grantHead_granted i
  have queue := h.lose_queue_same slot
  refine ⟨fun j hj => ?_, fun hq => ?_, fun d rest p q hq hd => ?_⟩
  · rw [granted.others j hj, moved.slots]
    exact keeps j (by rw [slot]; exact fun e => hj (Option.some.inj e).symm)
  · rw [granted.free (queue.trans hq), queue, hq]
    exact ⟨h.lose_slot slot, rfl⟩
  · obtain ⟨start, left⟩ := granted.head d rest p q (queue.trans hq)
      ((h.lose_waiting slot (by rw [hq]; exact List.mem_cons_self)).trans hd)
    exact ⟨start.congr (by rw [only.gain]) (by rw [only.channels]) only.programs.symm rfl rfl rfl, left⟩

/-- The channel of a fade brought to rest, its slot granted to the head of the queue (R139). -/
theorem SchedLaws.lose_granted (hd : ∀ d : Chan, d ≠ c → s.channels[d].out = none → Rests s d) :
    Rerouted s c (destination s c) (grantHead i (schedLoseChannel s c)) := by
  have disable : schedDisable c s = grantHead i (schedLoseChannel s c) := by rw [h.schedDisable_eq, slot]
  have lost := h.schedLoseChannel_acts c
  have acts := h.schedDisable_acts c hd
  have switch := (h.schedDisable_ways c).2
  rw [disable] at acts switch
  have granted := (SchedActs.laws lost h).grantHead_granted i
  refine ⟨switch, SchedActs.onlyPages acts, SchedActs.laws acts, SchedActs.eqLaws acts h,
    ⟨fun d hd head => ?_, fun d hd => by rw [granted.active]; exact (h.lose_chains hd).1⟩, fun e => ?_, fun j hj => ?_,
    fun g n => ?_⟩
  · obtain ⟨switch, target⟩ := granted.voicing d (by
      rw [h.lose_queue_same slot]
      exact head (by rw [slot]; exact Option.some_ne_none i))
    rw [switch, target, course_switch (h.lose_others c d hd)]
    exact ⟨rfl, (h.lose_chains hd).2⟩
  · rw [slot] at e; cases e
  · rw [slot] at hj
    cases hj
    exact h.lose_passes slot
  · have only := SchedActs.onlyPages lost
    have change := g.live_change (SchedActs.eqLaws lost h g) (h.lose_others c) only.programs n
    rw [appearancesIn_steady (h.lose_switch c), programOf_only only] at change
    rw [granted.live, h.lose_headCount slot, if_neg (by rw [slot]; exact Option.some_ne_none i)]
    omega

end

/-- A disabled channel comes to rest on the page it was on its way to (R139). -/
theorem SchedLaws.disable_rerouted (h : SchedLaws s)
    (hd : ∀ d : Chan, d ≠ c → s.channels[d].out = none → Rests s d) :
    Rerouted s c (destination s c) (schedDisable c s) := by
  rw [h.schedDisable_eq]
  cases slot : (s.sched.switch[c]).slot with
  | none => exact h.lose_rerouted slot
  | some i => exact h.lose_granted slot hd

end Sys2Proof.Machine
end

section
/-! What a channel load does beyond the record and the channel's targets (R25 to R27, R139 to R141, R144). -/

namespace Sys2Proof.Machine

variable {s t u v : State} {c : Chan} {new : ChannelRecord}

/-! ### Flags -/

theorem pick_zones (z y w : Zone) :
    pick (z == .a || y == .a) (z == .b || y == .b) w = true ↔ w = z ∨ w = y := by
  cases w <;> cases z <;> cases y <;> decide

/-- The settled flags of the zones a load named and names, after its page acts (R144). -/
theorem resettleLoad_flags (hs : v.sched.settled = s.sched.settled) (hn : v.notices = s.notices) (z : Zone) :
    FlagsAfter (fun y => y = z ∨ y = v.channels[c].zone) s (resettleLoad c z v) ∧
      SettledNotice s (resettleLoad c z v) := by
  refine ⟨(flagsAfter_resettleZones hs _ _).congr fun y => pick_zones .., ?_⟩
  have notice := (resettleZones_spec (z == .a || v.channels[c].zone == .a) (z == .b || v.channels[c].zone == .b) v).2.2
  unfold SettledNotice resettleLoad at *
  rw [notice, hs, hn]

/-- The load enables, disables or moves the channel. -/
def Changes (s : State) (c : Chan) (new : ChannelRecord) : Prop :=
  s.channels[c].out.isSome ≠ new.out.isSome ∨ s.channels[c].zone ≠ new.zone

/-- From `v`, which the page acts of a load leave, to the load's end `t`: the flags, and the silence of a disabled
channel. -/
structure LoadEnds (s : State) (c : Chan) (new : ChannelRecord) (v t : State) : Prop where
  switch : t.sched.switch = v.sched.switch
  slots : t.sched.slots = v.sched.slots
  queue : t.sched.queue = v.sched.queue
  target : t.equaliser.target = v.equaliser.target
  sections : t.equaliser.sections = v.equaliser.sections
  programs : t.equaliser.programs = v.equaliser.programs
  active : ∀ d : Chan, d ≠ c → t.equaliser.active[d] = v.equaliser.active[d]
  flags : FlagsAfter (fun z => Changes s c new ∧ (z = s.channels[c].zone ∨ z = new.zone)) s t
  notice : SettledNotice s t

theorem resettleLoad_ends (only : OnlyPagesMove (storeRecord c new s) v) (hs : v.sched.settled = s.sched.settled)
    (hn : v.notices = s.notices) (changes : Changes s c new) :
    LoadEnds s c new v (resettleLoad c s.channels[c].zone v) := by
  obtain ⟨flags, notice⟩ := resettleLoad_flags (c := c) hs hn s.channels[c].zone
  have same := sameSched_resettleZones (s := v) (s.channels[c].zone == .a || v.channels[c].zone == .a)
    (s.channels[c].zone == .b || v.channels[c].zone == .b)
  have eq : (resettleLoad c s.channels[c].zone v).equaliser = v.equaliser := equaliser_resettleZones ..
  have own : v.channels[c].zone = new.zone := by rw [only.channels, storeRecord_at, if_pos rfl]
  rw [own] at flags
  exact ⟨same.switch, same.slots, same.queue, by rw [eq], by rw [eq], by rw [eq], fun _ _ => by rw [eq],
    flags.congr fun z => (and_iff_right changes).symm, notice⟩

theorem LoadEnds.silence (h : LoadEnds s c new v t) : LoadEnds s c new v (emptyDelay c (zeroActive c t)) where
  switch := h.switch
  slots := h.slots
  queue := h.queue
  target := h.target
  sections := h.sections
  programs := h.programs
  active d hd := by
    rw [show (emptyDelay c (zeroActive c t)).equaliser = (zeroActive c t).equaliser from rfl, zeroActive, setActive_at,
      if_neg hd]
    exact h.active d hd
  flags := h.flags
  notice := h.notice

theorem storeRecord_ends (same : ¬ Changes s c new) : LoadEnds s c new (storeRecord c new s) (storeRecord c new s) := by
  refine ⟨rfl, rfl, rfl, rfl, rfl, rfl, fun _ _ => rfl, fun z => ⟨fun h => absurd h.1 same, fun _ => ?_⟩, ?_⟩
  · rw [storeRecord_sched]
  · unfold SettledNotice
    rw [storeRecord_sched, storeRecord_notices]
    refine ⟨.inl, ?_⟩
    rintro (h | ⟨-, z, off, on⟩)
    · exact h
    · rw [off] at on; cases on

/-! ### The kinds of load -/

/-- The page acts of a load that disables the channel (R139, R141). -/
def disablePages (s : State) (c : Chan) (new : ChannelRecord) : State :=
  if (s.channels[c].zone != new.zone) = true
  then askZonePage requestDisabled c (schedDisable c (storeRecord c new s)) else schedDisable c (storeRecord c new s)

/-- The page acts of a load that enables the channel, but for the page request, which finds it on its page (R140,
R141). -/
def enablePages (s : State) (c : Chan) (new : ChannelRecord) : State :=
  if (s.channels[c].zone != new.zone) = true
  then askZonePage requestDisabled c (storeRecord c new s) else storeRecord c new s

theorem loadRecord_disables (on : s.channels[c].out.isSome = true) (off : new.out.isSome = false) :
    loadRecord c new s =
      emptyDelay c (zeroActive c (resettleLoad c s.channels[c].zone (disablePages s c new))) := by
  unfold loadRecord
  simp only [on, off]
  rfl

theorem loadRecord_enables (off : s.channels[c].out.isSome = false) (on : new.out.isSome = true) :
    loadRecord c new s =
      resettleLoad c s.channels[c].zone (askZonePage requestEnabled c (enablePages s c new)) := by
  unfold loadRecord
  simp only [on, off]
  rfl

theorem loadRecord_moves (out : s.channels[c].out.isSome = new.out.isSome) (zone : s.channels[c].zone ≠ new.zone) :
    loadRecord c new s =
      resettleLoad c s.channels[c].zone (askZonePage pageRequest c (storeRecord c new s)) := by
  have moved : (s.channels[c].zone != new.zone) = true := bne_iff_ne.mpr zone
  unfold loadRecord
  simp only [moved, out, if_true]
  cases new.out.isSome <;> rfl

/-- The requested page of the zone the new record names. -/
def newPage (s : State) (new : ChannelRecord) : Page := (s.gain.zones.get new.zone).requestedPage

theorem disablePages_rerouted (h : SchedInv s) (hp : PagesInv s) :
    Rerouted (storeRecord c new s) c (newPage s new) (disablePages s c new) := by
  have d := h.disabling c new
  have lost := d.laws.disable_rerouted (c := c) d.resting
  unfold disablePages
  split
  · have page := loadedPages_page (r := new) lost.only
    unfold askZonePage
    rw [page]
    exact lost.redirect d.laws _
  · rename_i hz
    have hz : s.channels[c].zone = new.zone := by simpa using hz
    have page : destination (storeRecord c new s) c = newPage s new := by
      rw [destination_of_same (s := s) (storeRecord_sched ..), hp.onTheWay, hz]
      rfl
    rwa [page] at lost

theorem enablePages_rerouted (h : SchedInv s) (hp : PagesInv s) (off : s.channels[c].out = none) :
    Rerouted (storeRecord c new s) c (newPage s new) (enablePages s c new) := by
  have laws := h.sound.laws.storeRecord c new
  have rests : Rests (storeRecord c new s) c := by rw [rests_storeRecord]; exact h.sound.resting c off
  obtain ⟨p, hs⟩ : ∃ p, (storeRecord c new s).sched.switch[c] = .steady p := by
    cases hc : (storeRecord c new s).sched.switch[c] with
    | steady p => exact ⟨p, rfl⟩
    | queued p q => rw [Rests, hc] at rests; cases rests
    | fading p i => rw [Rests, hc] at rests; cases rests
  have rest := laws.rerouted_refl hs
  unfold enablePages
  split
  · have page := loadedPages_page (r := new) rest.only
    unfold askZonePage
    rw [page]
    exact rest.redirect laws _
  · rename_i hz
    have hz : s.channels[c].zone = new.zone := by simpa using hz
    have page : p = newPage s new := by
      rw [← destination_steady hs, destination_of_same (s := s) (storeRecord_sched ..), hp.onTheWay, hz]
      rfl
    rwa [page] at rest

/-- The page request of an enable finds the channel on its page. -/
theorem enablePages_asked (h : Rerouted (storeRecord c new s) c (newPage s new) v) :
    askZonePage requestEnabled c v = v := by
  unfold askZonePage
  rw [loadedPages_page h.only]
  unfold requestEnabled
  rw [h.switch]
  exact if_pos rfl

theorem disablePages_notices (h : SchedInv s) : (disablePages s c new).notices = s.notices := by
  have d := h.disabling c new
  have acts := d.laws.schedDisable_acts c d.resting
  have first : (schedDisable c (storeRecord c new s)).notices = s.notices :=
    (SchedActs.notices acts).trans (storeRecord_notices ..)
  unfold disablePages
  split
  · exact (SchedActs.notices ((SchedActs.laws acts d.laws).requestDisabled_acts c _)).trans first
  · exact first

theorem enablePages_notices (h : SchedInv s) : (enablePages s c new).notices = s.notices := by
  unfold enablePages
  split
  · exact (SchedActs.notices ((h.sound.laws.storeRecord c new).requestDisabled_acts c _)).trans (storeRecord_notices ..)
  · exact storeRecord_notices ..

/-- Every load: the pages its acts leave, and its end. -/
theorem loadRecord_ends (h : SchedInv s) (hp : PagesInv s) (c : Chan) (new : ChannelRecord) : ∃ v : State,
    LoadEnds s c new v (loadRecord c new s) ∧ destination v c = newPage s new ∧
    (s.channels[c].out.isSome ≠ new.out.isSome → Rerouted (storeRecord c new s) c (newPage s new) v) ∧
    (s.channels[c].out.isSome = new.out.isSome → s.channels[c].zone ≠ new.zone →
      v = pageRequest c (newPage s new) (storeRecord c new s) ∧ (loadRecord c new s).equaliser = v.equaliser) := by
  by_cases out : s.channels[c].out.isSome = new.out.isSome
  · by_cases zone : s.channels[c].zone = new.zone
    · rw [loadRecord_plain c new out zone]
      refine ⟨storeRecord c new s, storeRecord_ends (fun e => e.elim (· out) (· zone)), ?_, fun e => absurd out e,
        fun _ e => absurd zone e⟩
      rw [destination_of_same (s := s) (storeRecord_sched ..), hp.onTheWay, zone]
      rfl
    · have g := loaded_moved_pages h c new fun ho => h.sound.resting c (by
        rw [ho] at out
        exact Option.not_isSome_iff_eq_none.mp (by rw [out]; exact Bool.false_ne_true))
      have asked : askZonePage pageRequest c (storeRecord c new s) =
          pageRequest c (newPage s new) (storeRecord c new s) := by
        unfold askZonePage
        rw [loadedPages_page (.refl _)]
        rfl
      have notices : (askZonePage pageRequest c (storeRecord c new s)).notices = s.notices := by
        rw [asked, (pageRequest_asksOnly ..).notices, storeRecord_notices]
      rw [loadRecord_moves out zone]
      exact ⟨_, resettleLoad_ends g.only g.settled notices (.inr zone), g.way, fun e => absurd out e,
        fun _ _ => ⟨asked, equaliser_resettleZones ..⟩⟩
  · cases on : s.channels[c].out.isSome with
    | true =>
      have off : new.out.isSome = false := by rw [on] at out; exact Bool.eq_false_iff.mpr fun e => out e.symm
      have g := loaded_disabled_pages h hp c new
      rw [loadRecord_disables on off]
      exact ⟨disablePages s c new,
        (resettleLoad_ends g.only g.settled (disablePages_notices h) (.inl out)).silence, g.way,
        fun _ => disablePages_rerouted h hp, fun e => absurd e (by rw [off]; decide)⟩
    | false =>
      have on' : new.out.isSome = true := by rw [on] at out; exact Bool.eq_true_of_not_eq_false fun e => out e.symm
      have rerouted := enablePages_rerouted (new := new) h hp
        (Option.not_isSome_iff_eq_none.mp (by rw [on]; exact Bool.false_ne_true))
      have g := loaded_enabled_pages h c new (Option.isSome_iff_ne_none.mp on')
      have asked := enablePages_asked rerouted
      change LoadedPages c new s (askZonePage requestEnabled c (enablePages s c new)) at g
      rw [asked] at g
      rw [loadRecord_enables on on', asked]
      exact ⟨enablePages s c new, resettleLoad_ends g.only g.settled (enablePages_notices h) (.inl out), g.way,
        fun _ => rerouted, fun e => absurd e (by rw [on']; decide)⟩

/-! ### The frame of a load -/

/-- What a load leaves outside the pages: the record and the targets new, the channel's output delay emptied where it is
disabled. -/
structure LoadFrame (s : State) (c : Chan) (new : ChannelRecord) (t : State) : Prop where
  only : OnlyPagesMove (storeRecord c new s) { t with port := s.port }
  port : t.port = { s.port with delays := t.port.delays }
  delays : ∀ d : Chan, d ≠ c → t.port.delays[d] = s.port.delays[d]
  running : new.out ≠ none → t.port = s.port

theorem loadRecord_frame (c : Chan) (new : ChannelRecord) : LoadFrame s c new (loadRecord c new s) := by
  have off {x : State} (only : OnlyPagesMove (storeRecord c new s) x) :
      OnlyPagesMove (storeRecord c new s) { x with port := s.port } :=
    { only with port := (storeRecord_port s c new).symm }
  rcases loadRecord_cases (s := s) c new with only | ⟨-, out, x, only, e⟩
  · have port : (loadRecord c new s).port = s.port := only.port.trans (storeRecord_port ..)
    exact ⟨off only, by rw [port], fun d _ => by rw [port], fun _ => port⟩
  · have port : x.port = s.port := only.port.trans (storeRecord_port ..)
    rw [e]
    refine ⟨off (x := x) only, ?_, fun d hd => ?_, fun on => absurd out on⟩
    · unfold emptyDelay
      rw [port]
    · unfold emptyDelay
      rw [port]
      exact (get_set _ _ _ _).trans (if_neg hd)

/-- A page request does not read the targets. -/
theorem requestEnabled_targets (c : Chan) (r : Page) (x : LaneValues) :
    requestEnabled c r { s with gain.targets := x } = { requestEnabled c r s with gain.targets := x } := by
  have slot : freeSlot { s with gain.targets := x } = freeSlot s := rfl
  unfold requestEnabled
  rw [slot]
  dsimp only
  cases s.sched.switch[c] with
  | steady p =>
    dsimp only
    split
    · rfl
    · cases freeSlot s <;> rfl
  | queued p q =>
    dsimp only
    split <;> rfl
  | fading p i =>
    dsimp only
    cases s.sched.slots[i] <;> rfl

theorem pageRequest_targets (c : Chan) (r : Page) (x : LaneValues) :
    pageRequest c r { s with gain.targets := x } = { pageRequest c r s with gain.targets := x } := by
  have on : enabled { s with gain.targets := x } c = enabled s c := rfl
  unfold pageRequest
  rw [on, requestEnabled_targets]
  split
  · rfl
  · unfold requestDisabled
    dsimp only
    cases s.sched.switch[c] with
    | steady p =>
      dsimp only
      split <;> rfl
    | queued p q => rfl
    | fading p i => rfl

/-- A zone move asks for the new zone's page, whatever the targets are. -/
theorem pageRequest_storeRecord (c : Chan) (r : Page) (new : ChannelRecord) :
    (pageRequest c r (storeRecord c new s)).sched = (pageRequest c r { s with channels := s.channels.set c new }).sched ∧
    (pageRequest c r (storeRecord c new s)).equaliser =
      (pageRequest c r { s with channels := s.channels.set c new }).equaliser := by
  have same := pageRequest_targets (s := { s with channels := s.channels.set c new }) c r
    { s.gain.targets with
      user := s.gain.targets.user.set c (userTarget s.gain.cabin (s.gain.zones.get new.zone) new),
      speed := s.gain.targets.speed.set c (speedTarget (s.gain.zones.get new.zone) new),
      mute := s.gain.targets.mute.set c (muteTarget s.gain.mutes[c] (s.gain.zones.get new.zone)) }
  rw [storeRecord_eq]
  dsimp only at same
  rw [same]
  exact ⟨rfl, rfl⟩

/-! ### The channel of a load -/

theorem loadRecord_destination (h : SchedInv s) (hp : PagesInv s) (c : Chan) (new : ChannelRecord) :
    destination (loadRecord c new s) c = newPage s new := by
  obtain ⟨v, ends, way, -⟩ := loadRecord_ends h hp c new
  rw [destination_congr (course_of_same ends.switch ends.slots c), way]

theorem Rests.switch (h : Rests s c) : s.sched.switch[c] = .steady (destination s c) := by
  unfold Rests at h
  cases hs : s.sched.switch[c] with
  | steady p => rw [destination_steady hs]
  | queued p q => rw [hs] at h; cases h
  | fading p i => rw [hs] at h; cases h

/-- The channel is at rest on its page, and silent, where the load leaves it disabled. -/
theorem loadRecord_silent (h : SchedInv s) (hp : PagesInv s) (hd : DisabledInv s) (off : new.out = none) :
    (loadRecord c new s).sched.switch[c] = .steady (newPage s new) ∧
      (loadRecord c new s).port.delays[c] = Delay.empty ∧ Silent (loadRecord c new s) c := by
  have out : (loadRecord c new s).channels[c].out = none := by rw [loadRecord_channels, get_set, if_pos rfl, off]
  have rests := (h.loadRecord c new).sound.resting c out
  refine ⟨by rw [Rests.switch rests, loadRecord_destination h hp], ?_⟩
  exact disabledInv_iff.mp (hd.loadRecord h c new) c out

theorem mem_zeroChain {l : Program} {x : Position} (hx : x ∈ zeroChain l) : x = Position.zero := List.eq_of_mem_replicate hx

/-- It is silent, too, and runs on its page at once, where the load enables it (R26, R140). -/
theorem loadRecord_enabled (h : SchedInv s) (hp : PagesInv s) (hd : DisabledInv s) (off : s.channels[c].out = none)
    (on : new.out ≠ none) : (loadRecord c new s).sched.switch[c] = .steady (newPage s new) ∧
      (loadRecord c new s).port.delays[c] = Delay.empty ∧ Silent (loadRecord c new s) c := by
  obtain ⟨delay, silent⟩ := disabledInv_iff.mp hd c off
  have rerouted := enablePages_rerouted (new := new) h hp off
  have e : loadRecord c new s = resettleLoad c s.channels[c].zone (enablePages s c new) := by
    rw [loadRecord_enables (by rw [off]; rfl) (Option.isSome_iff_ne_none.mpr on), enablePages_asked rerouted]
  have eq : (loadRecord c new s).equaliser = (enablePages s c new).equaliser := by
    rw [e]; exact equaliser_resettleZones ..
  refine ⟨?_, ?_, ?_⟩
  · rw [e, resettleLoad, resettleZones_switch', rerouted.switch]
  · rw [e, (onlyPages_resettleLoad ..).port, rerouted.only.port, storeRecord_port, delay]
  · unfold Silent
    rw [eq]
    have stored : ∀ x ∈ (storeRecord c new s).equaliser.active[c], x = Position.zero := by
      rw [storeRecord_equaliser]; exact silent
    unfold enablePages askZonePage requestDisabled
    split
    · split
      · split
        · exact stored
        · rw [instantSwitch_active, if_pos rfl]
          exact fun x hx => mem_zeroChain hx
      · exact stored
      · exact stored
    · exact stored

/-! ### The voicing after an enable or a disable -/

theorem programOf_storeRecord (c d : Chan) (new : ChannelRecord) (p : Page) :
    programOf (storeRecord c new s) p d = programOf s p d := by
  unfold programOf; rw [storeRecord_equaliser]

theorem headCount_storeRecord (c : Chan) (new : ChannelRecord) (n : SectionId) :
    headCount (storeRecord c new s) n = headCount s n := by
  unfold headCount
  simp only [storeRecord_sched, programOf_storeRecord]

theorem appearancesIn_storeRecord (c d : Chan) (new : ChannelRecord) (n : SectionId) :
    appearancesIn (storeRecord c new s) n d = appearancesIn s n d := by
  rw [appearancesIn_eq, appearancesIn_eq, course_of_same (s := s) (by rw [storeRecord_sched]) (by rw [storeRecord_sched])]
  exact appearsOn_congr (by rw [storeRecord_equaliser]) ..

section

variable (r : Rerouted (storeRecord c new s) c (newPage s new) v) (ends : LoadEnds s c new v t)
include r ends

theorem LoadEnds.othersStay : OthersStay s c ((s.sched.switch[c]).slot ≠ none) t := by
  obtain ⟨voicing, active⟩ := r.others
  simp only [storeRecord_sched, storeRecord_equaliser] at voicing active
  refine ⟨fun d hd head => ?_, fun d hd => ?_⟩
  · rw [ends.switch, ends.target]; exact voicing d hd head
  · rw [ends.active d hd]; exact active d hd

theorem LoadEnds.slotPasses (h : SchedLaws s) {i : FadeSlot} (slot : (s.sched.switch[c]).slot = some i) :
    SlotPasses s i t := by
  obtain ⟨others, free, head⟩ := r.passes i (by rw [storeRecord_sched]; exact slot)
  rw [storeRecord_sched] at others free head
  refine ⟨by rw [ends.slots]; exact others, by rw [ends.slots, ends.queue]; exact free, fun d rest p q hq hd => ?_⟩
  obtain ⟨start, queue⟩ := head d rest p q hq hd
  have ne : d ≠ c := fun e => h.fading_out slot (by rw [hq, e]; exact List.mem_cons_self)
  exact ⟨start.congr (by rw [storeRecord_gain_zones]) (by rw [storeRecord_at, if_neg ne]) (by rw [storeRecord_equaliser])
    ends.switch ends.slots ends.target, ends.queue.trans queue⟩

theorem LoadEnds.live (g : EqualiserInv s) (n : SectionId) : (t.equaliser.sections[n]).live + appearancesIn s n c =
    (s.equaliser.sections[n]).live + (programOf s (newPage s new) c).count n +
      if (s.sched.switch[c]).slot = none then 0 else headCount s n := by
  have live := r.live (g.storeRecord c new).laws n
  rwa [appearancesIn_storeRecord, programOf_storeRecord, headCount_storeRecord, storeRecord_sched, storeRecord_equaliser,
    ← ends.sections] at live

end

/-- The chains of a channel at rest on a page, and silent. -/
theorem EqualiserInv.silent_chains (g : EqualiserInv s) {p : Page} (hs : s.sched.switch[c] = .steady p)
    (silent : Silent s c) : s.equaliser.active[c] = List.replicate (programOf s p c).length Position.zero ∧
      s.equaliser.target[c] = none := by
  have length := g.active c
  have target := g.target c
  rw [hs] at length
  rw [targetPage, hs] at target
  exact ⟨List.eq_replicate_iff.mpr ⟨length, silent⟩, Option.map_eq_none_iff.mp target⟩

/-- Settles O37: the record and the targets are `storeRecord`'s, the pages those the acts of its kind of load leave. -/
theorem loadChannelChanges : Obligations.LoadChannelChanges := by
  intro s c new h hp hd
  have silent := loadRecord_silent (c := c) (new := new) h hp hd
  have enabled := loadRecord_enabled (c := c) (new := new) h hp hd
  obtain ⟨v, ends, -, reroute, move⟩ := loadRecord_ends h hp c new
  have sound (g : EqualiserInv s) := g.loadRecord h c new
  have way := loadRecord_destination h hp c new
  have channels := loadRecord_channels (s := s) c new
  obtain ⟨only, port, delays, running⟩ := loadRecord_frame (s := s) c new
  dsimp only
  generalize loadRecord c new s = t at *
  have gain : t.gain = (storeRecord c new s).gain := only.gain
  rw [gain, storeRecord_eq]
  dsimp only
  refine ⟨channels, by simp, by simp, by simp, fun d hdc => ⟨?_, ?_, ?_, delays d hdc⟩, rfl, rfl, rfl, rfl,
    only.ramp.trans (storeRecord_ramp ..), only.speed.trans (storeRecord_speed ..),
    only.duck.trans (storeRecord_duck ..), only.output.trans (storeRecord_output ..),
    only.sources.trans (storeRecord_sources ..), port, only.pins.trans (storeRecord_pins ..),
    only.ringOut.trans (storeRecord_ringOut ..), only.pending.trans (storeRecord_pending ..),
    only.programs.trans (by rw [storeRecord_equaliser]), fun n => ?_, way, silent, enabled, fun _ on => by rw [running on],
    fun out zone => ?_, fun out => ?_, ends.flags, ends.notice, fun k hk => ?_, ?_, ?_⟩
  · rw [get_set, if_neg hdc]
  · rw [get_set, if_neg hdc]
  · rw [get_set, if_neg hdc]
  · have coeffs := only.coeffs n
    rwa [storeRecord_equaliser] at coeffs
  · obtain ⟨rfl, eq⟩ := move out zone
    obtain ⟨sched, equaliser⟩ := pageRequest_storeRecord (s := s) c (newPage s new) new
    rw [ends.switch, ends.slots, ends.queue, eq, sched, equaliser]
    exact ⟨rfl, rfl, rfl, rfl⟩
  · have r := reroute out
    refine ⟨ends.othersStay r, fun slot => ?_, fun i slot => ends.slotPasses r h.sound.laws slot, fun g => ?_⟩
    · obtain ⟨slots, queue⟩ := r.plain (by rw [storeRecord_sched]; exact not_not.mp slot)
      rw [ends.slots, ends.queue, slots, queue, storeRecord_sched]
      exact ⟨rfl, rfl⟩
    · have rest : t.sched.switch[c] = .steady (newPage s new) := ends.switch ▸ r.switch
      have quiet : Silent t c := by
        by_cases off : new.out = none
        · exact (silent off).2.2
        · refine (enabled ?_ off).2.2
          have on := Option.isSome_iff_ne_none.mpr off
          rw [on] at out
          exact Option.not_isSome_iff_eq_none.mp out
      obtain ⟨active, target⟩ := (sound g).silent_chains rest quiet
      refine ⟨?_, target, ends.live r g⟩
      rw [active, programOf, only.programs, storeRecord_equaliser]
      rfl
  · have kinds := only.kinds k hk
    rwa [storeRecord_notices] at kinds
  · exact only.enabled.trans (by rw [storeRecord_notices])
  · exact only.roll.trans (by rw [storeRecord_notices])

end Sys2Proof.Machine
end

section
/-! What the acts of a frame other than its control word leave alone (R66, R97, R126, R138, R162), act by act. -/

namespace Sys2Proof.Machine

variable {s t u : State}

/-- `FrameActs` but for what follows from the tracker's record and the DUCK line. -/
structure Around (s u : State) : Prop where
  pins : u.pins = s.pins
  lock : u.port.lock = s.port.lock ∧ u.port.misses = s.port.misses
  assembler : u.port.assembler = s.port.assembler
  sender : u.port.sender = s.port.sender
  address : u.port.address = s.port.address ∧ u.port.twin = s.port.twin
  sources : u.sources = s.sources
  channels : u.channels = s.channels
  programs : u.equaliser.programs = s.equaliser.programs
  sections : ∀ i : SectionId, (u.equaliser.sections[i]).coeffs = (s.equaliser.sections[i]).coeffs ∧
    (u.equaliser.sections[i]).valid = (s.equaliser.sections[i]).valid
  cabin : u.gain.cabin = s.gain.cabin
  mutes : u.gain.mutes = s.gain.mutes
  targets : u.gain.targets.user = s.gain.targets.user ∧ u.gain.targets.mute = s.gain.targets.mute
  zones : ∀ z : Zone, u.gain.zones.get z =
    { s.gain.zones.get z with boost := (u.gain.zones.get z).boost, band := (u.gain.zones.get z).band,
                              requestedPage := (u.gain.zones.get z).requestedPage }
  paces : ∀ l : Lane, u.ramp.lanes.get l = { s.ramp.lanes.get l with count := (u.ramp.lanes.get l).count }
  policy : u.speed.jump = s.speed.jump ∧ u.speed.hysteresis = s.speed.hysteresis ∧
    u.speed.timeout = s.speed.timeout ∧ u.speed.fallback = s.speed.fallback
  notices : u.notices.enabled = s.notices.enabled ∧ u.notices.roll = s.notices.roll
  kinds : ∀ k : NoticeKind, hasKind s.notices.pending k = true → hasKind u.notices.pending k = true
  added : ∀ k : NoticeKind, hasKind u.notices.pending k = true → hasKind s.notices.pending k = true ∨
    (hasKind s.notices.enabled k = true ∧ k ≠ .relock ∧ k ≠ .ctrlLost)
  frame : ∀ o ∈ s.ringOut, ∃ x ∈ u.ringOut, x.judged = o.judged ∧ x.frame.sync = o.frame.sync ∧
    x.frame.fields.control = o.frame.fields.control ∧ x.frame.fields.answer = o.frame.fields.answer ∧
    x.frame.fields.roll = o.frame.fields.roll ∧
    (x.frame.fields.service = o.frame.fields.service ∨
      x.frame.fields.service = o.frame.fields.service ||| 128#8)
  queue : u.pending = s.pending

theorem Around.frameActs (h : Around s u) (plan : PlanFollows s u) : FrameActs s u := by
  obtain ⟨h1, h2, h3, h4, h5, h6, h7, h8, h9, h10, h11, h12, h13, h14, h15, h16, h17, h18, h19, h20⟩ := h
  exact ⟨h1, h2, h3, h4, h5, h6, h7, h8, h9, h10, h11, h12, h13, h14, plan, h15, h16, h17, h18, h19, h20⟩

theorem Around.refl (s : State) : Around s s :=
  ⟨rfl, ⟨rfl, rfl⟩, rfl, rfl, ⟨rfl, rfl⟩, rfl, rfl, rfl, fun _ => ⟨rfl, rfl⟩, rfl, rfl, ⟨rfl, rfl⟩, fun _ => rfl,
    fun _ => rfl, ⟨rfl, rfl, rfl, rfl⟩, ⟨rfl, rfl⟩, fun _ => id, fun _ => .inl,
    fun o ho => ⟨o, ho, rfl, rfl, rfl, rfl, rfl, .inl rfl⟩, rfl⟩

theorem Around.trans (h : Around s t) (g : Around t u) : Around s u where
  pins := g.pins.trans h.pins
  lock := ⟨g.lock.1.trans h.lock.1, g.lock.2.trans h.lock.2⟩
  assembler := g.assembler.trans h.assembler
  sender := g.sender.trans h.sender
  address := ⟨g.address.1.trans h.address.1, g.address.2.trans h.address.2⟩
  sources := g.sources.trans h.sources
  channels := g.channels.trans h.channels
  programs := g.programs.trans h.programs
  sections i := ⟨(g.sections i).1.trans (h.sections i).1, (g.sections i).2.trans (h.sections i).2⟩
  cabin := g.cabin.trans h.cabin
  mutes := g.mutes.trans h.mutes
  targets := ⟨g.targets.1.trans h.targets.1, g.targets.2.trans h.targets.2⟩
  zones z := (g.zones z).trans (by rw [h.zones z])
  paces l := (g.paces l).trans (by rw [h.paces l])
  policy := by
    obtain ⟨a, b, c, d⟩ := h.policy
    obtain ⟨a', b', c', d'⟩ := g.policy
    exact ⟨a'.trans a, b'.trans b, c'.trans c, d'.trans d⟩
  notices := ⟨g.notices.1.trans h.notices.1, g.notices.2.trans h.notices.2⟩
  kinds k hk := g.kinds k (h.kinds k hk)
  added k hk := (g.added k hk).elim (h.added k) fun ⟨on, ne⟩ => .inr ⟨by rw [← h.notices.1]; exact on, ne⟩
  frame o ho := by
    obtain ⟨x, hx, a, b, c, d, e, f⟩ := h.frame o ho
    obtain ⟨y, hy, a', b', c', d', e', f'⟩ := g.frame x hx
    refine ⟨y, hy, a'.trans a, b'.trans b, c'.trans c, d'.trans d, e'.trans e, ?_⟩
    rcases f with f | f <;> rcases f' with f' | f' <;> rw [f', f]
    · exact .inl rfl
    · exact .inr rfl
    · exact .inr rfl
    · exact .inr (by rw [BitVec.or_assoc, BitVec.or_self])
  queue := g.queue.trans h.queue

theorem Around.onlyPages (g : OnlyPagesMove s t) : Around s t where
  pins := g.pins
  lock := by rw [g.port]; exact ⟨rfl, rfl⟩
  assembler := by rw [g.port]
  sender := by rw [g.port]
  address := by rw [g.port]; exact ⟨rfl, rfl⟩
  sources := g.sources
  channels := g.channels
  programs := g.programs
  sections := g.coeffs
  cabin := by rw [g.gain]
  mutes := by rw [g.gain]
  targets := by rw [g.gain]; exact ⟨rfl, rfl⟩
  zones z := by rw [g.gain]
  paces l := by rw [g.ramp]
  policy := by rw [g.speed]; exact ⟨rfl, rfl, rfl, rfl⟩
  notices := ⟨g.enabled, g.roll⟩
  kinds k hk := by
    by_cases e : k = .pageSettled
    · subst e; exact g.keeps hk
    · rw [g.kinds k e]; exact hk
  added k hk := by
    by_cases e : k = .pageSettled
    · subst e
      exact (g.raises hk).imp_right fun on => ⟨on, by decide, by decide⟩
    · exact .inl (by rw [← g.kinds k e]; exact hk)
  frame o ho := ⟨o, by rw [g.ringOut]; exact ho, rfl, rfl, rfl, rfl, rfl, .inl rfl⟩
  queue := g.pending

/-- A notice of a kind that acts may raise, recorded where its kind is enabled. -/
theorem around_notify {k : NoticeKind} (hk : k ≠ .relock ∧ k ≠ .ctrlLost) : Around s (notify k s) where
  pins := by simp
  lock := by simp
  assembler := by simp
  sender := by simp
  address := by simp
  sources := by simp
  channels := by simp
  programs := by simp
  sections i := by simp
  cabin := by simp
  mutes := by simp
  targets := by simp
  zones z := by simp
  paces l := by simp
  policy := by simp
  notices := by simp
  kinds j hj := by rw [notify_pending_has, hj, Bool.true_or]
  added j hj := by
    rw [notify_pending_has] at hj
    simp only [Bool.or_eq_true, Bool.and_eq_true, decide_eq_true_eq] at hj
    rcases hj with hj | ⟨e, on⟩
    · exact .inl hj
    · subst e
      exact .inr ⟨on, hk⟩
  frame o ho := ⟨o, by simpa using ho, rfl, rfl, rfl, rfl, rfl, .inl rfl⟩
  queue := by simp

/-! ### The acts -/

theorem around_lanes {lanes : PerLane LaneSettings} (paces : ∀ l : Lane, lanes.get l =
      { s.ramp.lanes.get l with count := (lanes.get l).count }) (currents : LaneValues) :
    Around s { s with ramp := ⟨lanes, currents⟩ } :=
  { Around.refl s with paces := paces }

theorem around_line (duck : DuckLine) (line : PerZone Int) :
    Around s { s with duck := duck, gain.targets.duck := line } := { Around.refl s with }

theorem around_output (output : OutputStage) : Around s { s with output := output } := { Around.refl s with }

theorem setLane_get (l k : Lane) (x : LaneSettings) (p : PerLane LaneSettings) :
    (p.set l x).get k = if k = l then x else p.get k := by cases l <;> cases k <;> rfl

theorem around_countLane (l : Lane) : Around s (countLane l s) := by
  have paces (n : Nat) (k : Lane) : (s.ramp.lanes.set l { s.ramp.lanes.get l with count := n }).get k =
      { s.ramp.lanes.get k with count := ((s.ramp.lanes.set l { s.ramp.lanes.get l with count := n }).get k).count } := by
    rw [setLane_get]
    split
    · subst k; rfl
    · rfl
  unfold countLane
  dsimp only
  split
  · exact around_lanes (paces _) _
  · exact around_lanes (paces _) _

theorem around_countDuck : Around s (countDuck s) := by
  unfold countDuck
  split
  · unfold takeDuckSample
    dsimp only
    split
    · exact (around_line _ _).trans (around_notify (by decide))
    · exact around_line _ s.gain.targets.duck
  · exact around_line _ s.gain.targets.duck

theorem around_metersAct (view : View) (runs : Runs) : Around s (metersAct view runs s) := by
  unfold metersAct notifyIf
  dsimp only
  split
  · exact (around_output _).trans (around_notify (by decide))
  · exact around_output _

/-- A change of the frame in hand that keeps what a frame's other acts do not write. -/
theorem around_mapOut {g : OutFrame → OutFrame} (h : ∀ o, (g o).judged = o.judged ∧ (g o).frame.sync = o.frame.sync ∧
    (g o).frame.fields.control = o.frame.fields.control ∧ (g o).frame.fields.answer = o.frame.fields.answer ∧
    (g o).frame.fields.roll = o.frame.fields.roll ∧
    ((g o).frame.fields.service = o.frame.fields.service ∨
      (g o).frame.fields.service = o.frame.fields.service ||| 128#8)) : Around s (mapOut g s) :=
  { Around.refl s with
    frame := fun o ho => ⟨g o, by rw [mapOut_ringOut, ho]; rfl, h o⟩ }

theorem around_requestAct : Around s (requestAct s) := by
  unfold requestAct
  split
  · exact around_mapOut fun o => ⟨rfl, rfl, rfl, rfl, rfl, .inr rfl⟩
  · exact .refl s

theorem around_recheck : Around s (mapOut recheck s) := by
  refine around_mapOut fun o => ?_
  unfold recheck
  split <;> exact ⟨rfl, rfl, rfl, rfl, rfl, .inl rfl⟩

theorem around_signal (held : Vector Sample 8) (delays : Vector Delay 24) (active : Vector Chain 24)
    (target : Vector (Option Chain) 24) :
    Around s { s with port.held := held, port.delays := delays, equaliser.active := active, equaliser.target := target } :=
  { Around.refl s with }

theorem around_slots (g : Vector Sample 32 → Vector Sample 32) :
    Around s (mapOut (onFields fun f => { f with slots := g f.slots }) s) :=
  around_mapOut fun _ => ⟨rfl, rfl, rfl, rfl, rfl, .inl rfl⟩

theorem around_storeAudio (view : View) (taken : Vector Sample 8) (runs : Runs) :
    Around s (storeAudio view taken runs s) := by
  have signal := around_signal (s := s) (heldAfter s taken) (delaysAfter s runs) (activeAfter s runs) (targetAfter s runs)
  unfold storeAudio
  exact signal.trans (around_slots (slotsOut s view))

theorem around_audioAct (x : FrameCtx) (r : FrameRun) : Around r.state (audioAct x r).state := by
  unfold audioAct
  dsimp only
  exact around_storeAudio _ _ _

/-! ### The staleness counter -/

/-- The state once the tracker has counted a frame, before the page requests (R93, R94, R92). -/
def tracked (s : State) : State :=
  { s.withTracker s.speed.counted with
    notices.pending.speedLost := s.notices.pending.speedLost ||
      (s.speed.fresh && s.speed.counter == 1 && s.notices.enabled.speedLost) }

theorem tracked_still (speed : s.speed.counted.effective = s.speed.effective)
    (lost : s.speed.fresh = false ∨ s.speed.counter ≠ 1) : tracked s = { s with speed := s.speed.counted } := by
  have none : (s.speed.fresh && s.speed.counter == 1 && s.notices.enabled.speedLost) = false := by
    rcases lost with e | e <;> simp [e]
  unfold tracked State.withTracker
  rw [if_pos speed, none, Bool.or_false]

theorem counted_expired (fresh : s.speed.fresh = true) (last : s.speed.counter = 1) : s.speed.counted = expire s.speed := by
  unfold SpeedTracker.counted
  rw [if_neg (by rw [fresh, last]; decide), if_pos last]
  rfl

/-- The staleness counter counts, and the page requests of a changed effective speed follow. -/
theorem movesPages_countStaleness : MovesPages s (tracked s) (countStaleness s) := by
  unfold countStaleness
  by_cases counts : s.speed.fresh = true ∧ 0 < s.speed.counter
  · obtain ⟨fresh, some⟩ := counts
    rw [if_pos ⟨fresh, some⟩]
    by_cases last : s.speed.counter = 1
    · have moves := (movesPages_speedEvent (s := s) (expire s.speed)).speedLost
      rw [if_pos last]
      have e : tracked s = { s.withTracker (expire s.speed) with
          notices.pending.speedLost := (s.withTracker (expire s.speed)).notices.pending.speedLost ||
            (s.withTracker (expire s.speed)).notices.enabled.speedLost } := by
        unfold tracked
        rw [counted_expired fresh last, fresh, last, withTracker_notices]
        rfl
      rw [e]
      exact moves
    · have down : s.speed.counted = { s.speed with counter := s.speed.counter - 1 } := by
        unfold SpeedTracker.counted
        rw [if_neg (by rw [fresh]; simp; omega), if_neg last]
      rw [if_neg last, tracked_still (by rw [down]) (.inr last), down]
      exact movesPages_refl rfl rfl (fun _ => rfl) fun _ => rfl
  · have still : s.speed.counted = s.speed := by
      unfold SpeedTracker.counted
      rw [if_pos]
      rw [Nat.pos_iff_ne_zero] at counts
      cases h : s.speed.fresh
      · exact .inl rfl
      · exact .inr (not_not.mp fun c => counts ⟨h, c⟩)
    rw [if_neg counts, tracked_still (by rw [still]) (by
      by_cases fresh : s.speed.fresh = true
      · exact .inr fun e => counts ⟨fresh, by omega⟩
      · exact .inl (Bool.not_eq_true _ ▸ fresh)), still]
    exact movesPages_refl rfl rfl (fun _ => rfl) fun _ => rfl

theorem counted_policy (r : SpeedTracker) : r.counted.jump = r.jump ∧ r.counted.hysteresis = r.hysteresis ∧
    r.counted.timeout = r.timeout ∧ r.counted.fallback = r.fallback := by
  unfold SpeedTracker.counted
  split
  · exact ⟨rfl, rfl, rfl, rfl⟩
  · split <;> exact ⟨rfl, rfl, rfl, rfl⟩

theorem atSpeed_keeps (v : Nat) (y : ZoneRecord) : y.atSpeed v =
    { y with boost := (y.atSpeed v).boost, band := (y.atSpeed v).band, requestedPage := (y.atSpeed v).requestedPage } := rfl

/-- A tracker record of the same policy, with the zones and speed targets that follow. -/
theorem around_plan {r : SpeedTracker} (policy : r.jump = s.speed.jump ∧ r.hysteresis = s.speed.hysteresis ∧
    r.timeout = s.speed.timeout ∧ r.fallback = s.speed.fallback) {zs : PerZone ZoneRecord}
    (zones : ∀ z, zs.get z = { s.gain.zones.get z with
      boost := (zs.get z).boost, band := (zs.get z).band, requestedPage := (zs.get z).requestedPage })
    (x : Vector Int 24) : Around s { s with speed := r, gain.zones := zs, gain.targets.speed := x } :=
  { Around.refl s with policy := policy, zones := zones }

theorem around_withTracker {r : SpeedTracker} (policy : r.jump = s.speed.jump ∧ r.hysteresis = s.speed.hysteresis ∧
    r.timeout = s.speed.timeout ∧ r.fallback = s.speed.fallback) : Around s (s.withTracker r) := by
  unfold State.withTracker
  split
  · exact around_plan policy (fun _ => rfl) s.gain.targets.speed
  · unfold State.atEffectiveSpeed
    refine around_plan policy (fun z => ?_) _
    cases z
    · exact atSpeed_keeps r.effective s.gain.zones.a
    · exact atSpeed_keeps r.effective s.gain.zones.b

theorem around_speedLost (b : Bool) : Around s { s with
    notices.pending.speedLost := s.notices.pending.speedLost || (b && s.notices.enabled.speedLost) } := by
  cases b with
  | false =>
    rw [Bool.false_and, Bool.or_false]
    exact .refl s
  | true =>
    have lost := around_notify (s := s) (k := .speedLost) (by decide)
    rw [notify_speedLost] at lost
    exact lost

theorem around_tracked : Around s (tracked s) := by
  have first := around_withTracker (s := s) (counted_policy s.speed)
  have lost := around_speedLost (s := s.withTracker s.speed.counted) (s.speed.fresh && s.speed.counter == 1)
  have notices : (s.withTracker s.speed.counted).notices = s.notices := withTracker_notices _
  refine first.trans ?_
  unfold tracked
  simp only [notices] at lost ⊢
  exact lost

theorem around_countStaleness : Around s (countStaleness s) :=
  around_tracked.trans (.onlyPages movesPages_countStaleness.only)

/-! ### One step, and a run of them -/

theorem around_step (x : FrameCtx) (r : FrameRun) {b : FrameStep} (hb : b ≠ .act .control) :
    Around r.state (runStep x r b).state := by
  cases b with
  | audio => exact around_audioAct x r
  | act a =>
    cases a with
    | control => exact absurd rfl hb
    | request => exact around_requestAct
    | meters => exact around_metersAct _ _
    | fades => exact .onlyPages (onlyPages_fadesAct _ _)
    | count l => exact around_countLane l
    | staleness => exact around_countStaleness
    | duckLine => exact around_countDuck

theorem around_steps (x : FrameCtx) (l : List FrameStep) (hl : .act .control ∉ l) : ∀ r : FrameRun,
    Around r.state (l.foldl (runStep x) r).state := by
  induction l with
  | nil => exact fun r => .refl _
  | cons b l ih =>
    obtain ⟨hb, hl'⟩ := not_or.mp (fun h => hl (List.mem_cons.mpr h))
    exact fun r => (around_step x r (Ne.symm hb)).trans (ih hl' _)

end Sys2Proof.Machine
end

section
/-! Who moves what in a frame: each part of the state is changed by one of the acts and read by few. -/

namespace Sys2Proof.Machine

variable {s t u : State} {x : FrameCtx} {r : FrameRun}

/-! ### Each act as a change of its own parts -/

theorem requestAct_parts (s : State) : ∃ o, requestAct s = { s with ringOut := o } := by
  unfold requestAct
  split
  · exact ⟨_, rfl⟩
  · exact ⟨s.ringOut, rfl⟩

/-- A tick of one lane moves no other lane's currents. -/
theorem moveLane_others {l k : Lane} (hk : k ≠ l) (s : State) :
    (moveLane l s).ofLane k = s.ramp.currents.ofLane k := by
  cases l <;> cases k <;> simp_all [moveLane, LaneValues.ofLane]

theorem countLane_parts (l : Lane) (s : State) : ∃ y c, countLane l s = { s with ramp := ⟨s.ramp.lanes.set l y, c⟩ } ∧
    ∀ k, k ≠ l → c.ofLane k = s.ramp.currents.ofLane k := by
  unfold countLane
  dsimp only
  split
  · exact ⟨_, moveLane l s, rfl, fun k hk => moveLane_others hk s⟩
  · exact ⟨_, s.ramp.currents, rfl, fun _ _ => rfl⟩

theorem countDuck_parts (s : State) : ∃ d line b, countDuck s =
    { s with duck := d, gain.targets.duck := line, notices.pending.duckLine := b } := by
  unfold countDuck
  split
  · unfold takeDuckSample
    dsimp only
    split
    · rw [notify_duckLine]
      exact ⟨_, _, _, rfl⟩
    · exact ⟨_, s.gain.targets.duck, s.notices.pending.duckLine, rfl⟩
  · exact ⟨_, s.gain.targets.duck, s.notices.pending.duckLine, rfl⟩

theorem notify_clip (s : State) : notify .clip s =
    { s with notices.pending.clip := s.notices.pending.clip || s.notices.enabled.clip } := by
  unfold notify
  cases h : s.notices.enabled.clip <;> simp [hasKind, addKind, h]

theorem metersAct_parts (view : View) (runs : Runs) (s : State) : ∃ o b, metersAct view runs s =
    { s with output := o, notices.pending.clip := b } := by
  unfold metersAct notifyIf
  dsimp only
  split
  · rw [notify_clip]
    exact ⟨_, _, rfl⟩
  · exact ⟨_, s.notices.pending.clip, rfl⟩

theorem audioAct_parts (x : FrameCtx) (r : FrameRun) : ∃ o held delays active target, (audioAct x r).state =
    { r.state with ringOut := o, port.held := held, port.delays := delays, equaliser.active := active,
                   equaliser.target := target } := by
  unfold audioAct storeAudio
  exact ⟨_, _, _, _, _, rfl⟩

/-- A part of the state that pages, the frame in hand and the audio do not touch. -/
structure Part {α : Type} (p : State → α) : Prop where
  ringOut : ∀ s o, p { s with ringOut := o } = p s
  audio : ∀ (s : State) o held delays active target,
    p { s with ringOut := o, port.held := held, port.delays := delays,
               equaliser.active := active, equaliser.target := target } = p s
  pages : ∀ s t, OnlyPagesMove s t → p t = p s

/-- Such a part stands in every step that is none of the acts that move it. -/
theorem Part.keeps {α : Type} {p : State → α} (h : Part p) {b c : FrameStep} (hc : c ≠ .act .control) (hb : c ≠ b)
    (meters : .act .meters ≠ b → ∀ (s : State) o k, p { s with output := o, notices.pending.clip := k } = p s)
    (lane : ∀ l, .act (.count l) ≠ b → ∀ (s : State) y cur, (∀ k, k ≠ l → cur.ofLane k = s.ramp.currents.ofLane k) →
      p { s with ramp := ⟨s.ramp.lanes.set l y, cur⟩ } = p s)
    (line : .act .duckLine ≠ b → ∀ (s : State) d y k,
      p { s with duck := d, gain.targets.duck := y, notices.pending.duckLine := k } = p s)
    (plan : .act .staleness ≠ b → ∀ s : State, p (tracked s) = p s) (r : FrameRun) :
    p (runStep x r c).state = p r.state := by
  cases c with
  | audio =>
    obtain ⟨o, held, delays, active, target, e⟩ := audioAct_parts x r
    rw [show runStep x r .audio = audioAct x r from rfl, e]
    exact h.audio ..
  | act a =>
    cases a with
    | control => exact absurd rfl hc
    | request =>
      obtain ⟨o, e⟩ := requestAct_parts r.state
      rw [show (runStep x r (.act .request)).state = requestAct r.state from rfl, e]
      exact h.ringOut ..
    | meters =>
      obtain ⟨o, k, e⟩ := metersAct_parts x.view r.runs r.state
      rw [show (runStep x r (.act .meters)).state = metersAct x.view r.runs r.state from rfl, e]
      exact meters hb ..
    | fades => exact h.pages _ _ (onlyPages_fadesAct _ _)
    | count l =>
      obtain ⟨y, cur, e, others⟩ := countLane_parts l r.state
      rw [show (runStep x r (.act (.count l))).state = countLane l r.state from rfl, e]
      exact lane l hb _ _ _ others
    | staleness => exact (h.pages _ _ movesPages_countStaleness.only).trans (plan hb _)
    | duckLine =>
      obtain ⟨d, y, k, e⟩ := countDuck_parts r.state
      rw [show (runStep x r (.act .duckLine)).state = countDuck r.state from rfl, e]
      exact line hb ..

/-! ### The parts -/

/-- The settings, count and currents of one lane. -/
def lanePart (l : Lane) (s : State) : LaneSettings × List Int := (s.ramp.lanes.get l, s.ramp.currents.ofLane l)

/-- The tracker's record, and what the Gain Planner forms of it. -/
def planPart (s : State) : SpeedTracker × PerZone ZoneRecord × Vector Int 24 × Vector ChannelRecord 24 :=
  (s.speed, s.gain.zones, s.gain.targets.speed, s.channels)

/-- The DUCK line, and what is formed of it: both duck targets, and how a zone's follows the line. -/
def linePart (s : State) : DuckLine × PerZone Int × Bool × (Zone → Bool → Int) :=
  (s.duck, s.gain.targets.duck, s.pins.duck, fun z level => duckTarget (s.gain.zones.get z) level)

/-- The meters. -/
def meterPart (s : State) : OutputStage := s.output

theorem part_of_fields {α : Type} {p : State → α} (f : RampEngine → GainPlanner → SpeedTracker → DuckLine → OutputStage →
    Vector ChannelRecord 24 → Pins → α) (hp : ∀ s, p s = f s.ramp s.gain s.speed s.duck s.output s.channels s.pins) :
    Part p where
  ringOut s o := by rw [hp, hp]
  audio s o held delays active target := by rw [hp, hp]
  pages s t g := by rw [hp, hp, g.ramp, g.gain, g.speed, g.duck, g.output, g.channels, g.pins]

theorem part_lane (l : Lane) : Part (lanePart l) :=
  part_of_fields (fun ramp _ _ _ _ _ _ => (ramp.lanes.get l, ramp.currents.ofLane l)) fun _ => rfl

theorem part_plan : Part planPart :=
  part_of_fields (fun _ gain speed _ _ channels _ => (speed, gain.zones, gain.targets.speed, channels)) fun _ => rfl

theorem part_line : Part linePart :=
  part_of_fields (fun _ gain _ duck _ _ pins => (duck, gain.targets.duck, pins.duck,
    fun z level => duckTarget (gain.zones.get z) level)) fun _ => rfl

theorem part_meter : Part meterPart := part_of_fields (fun _ _ _ _ output _ _ => output) fun _ => rfl

theorem tracked_ramp (s : State) : (tracked s).ramp = s.ramp := by
  unfold tracked State.withTracker
  dsimp only
  split <;> rfl

theorem tracked_output (s : State) : (tracked s).output = s.output := by
  unfold tracked State.withTracker
  dsimp only
  split <;> rfl

theorem tracked_line (s : State) : linePart (tracked s) = linePart s := by
  unfold tracked State.withTracker
  split
  · rfl
  · unfold linePart State.atEffectiveSpeed
    dsimp only
    congr
    funext z
    cases z <;> rfl

theorem lane_keeps {l : Lane} {c : FrameStep} (hc : c ≠ .act .control) (hb : c ≠ .act (.count l)) (r : FrameRun) :
    lanePart l (runStep x r c).state = lanePart l r.state :=
  (part_lane l).keeps hc hb (fun _ _ _ _ => rfl)
    (fun k hk s y cur others => by
      have ne : l ≠ k := fun e => hk (by rw [e])
      unfold lanePart
      rw [setLane_get, if_neg ne, others l ne])
    (fun _ _ _ _ _ => rfl) (fun _ s => by unfold lanePart; rw [tracked_ramp]) r

theorem plan_keeps {c : FrameStep} (hc : c ≠ .act .control) (hb : c ≠ .act .staleness) (r : FrameRun) :
    planPart (runStep x r c).state = planPart r.state :=
  part_plan.keeps hc hb (fun _ _ _ _ => rfl) (fun _ _ _ _ _ _ => rfl) (fun _ _ _ _ _ => rfl) (fun h => absurd rfl h) r

theorem line_keeps {c : FrameStep} (hc : c ≠ .act .control) (hb : c ≠ .act .duckLine) (r : FrameRun) :
    linePart (runStep x r c).state = linePart r.state :=
  part_line.keeps hc hb (fun _ _ _ _ => rfl) (fun _ _ _ _ _ _ => rfl) (fun h => absurd rfl h)
    (fun _ s => tracked_line s) r

theorem meter_keeps {c : FrameStep} (hc : c ≠ .act .control) (hb : c ≠ .act .meters) (r : FrameRun) :
    meterPart (runStep x r c).state = meterPart r.state :=
  part_meter.keeps hc hb (fun h => absurd rfl h) (fun _ _ _ _ _ _ => rfl) (fun _ _ _ _ _ => rfl)
    (fun _ s => tracked_output s) r

/-- A pending kind, PAGE_SETTLED apart. -/
theorem part_kind {k : NoticeKind} (hk : k ≠ .pageSettled) : Part fun s => hasKind s.notices.pending k where
  ringOut _ _ := rfl
  audio _ _ _ _ _ _ := rfl
  pages _ _ g := g.kinds k hk

theorem clip_keeps {c : FrameStep} (hc : c ≠ .act .control) (hb : c ≠ .act .meters) (r : FrameRun) :
    hasKind (runStep x r c).state.notices.pending .clip = hasKind r.state.notices.pending .clip :=
  (part_kind (k := .clip) (by decide)).keeps hc hb (fun h => absurd rfl h) (fun _ _ _ _ _ _ => rfl)
    (fun _ _ _ _ _ => rfl) (fun _ s => by unfold tracked; rw [← withTracker_notices (s := s) s.speed.counted]; rfl) r

theorem speedLost_keeps {c : FrameStep} (hc : c ≠ .act .control) (hb : c ≠ .act .staleness) (r : FrameRun) :
    hasKind (runStep x r c).state.notices.pending .speedLost = hasKind r.state.notices.pending .speedLost :=
  (part_kind (k := .speedLost) (by decide)).keeps hc hb (fun _ _ _ _ => rfl) (fun _ _ _ _ _ _ => rfl)
    (fun _ _ _ _ _ => rfl) (fun h => absurd rfl h) r

theorem duckLine_keeps {c : FrameStep} (hc : c ≠ .act .control) (hb : c ≠ .act .duckLine) (r : FrameRun) :
    hasKind (runStep x r c).state.notices.pending .duckLine = hasKind r.state.notices.pending .duckLine :=
  (part_kind (k := .duckLine) (by decide)).keeps hc hb (fun _ _ _ _ => rfl) (fun _ _ _ _ _ _ => rfl)
    (fun h => absurd rfl h) (fun _ s => by unfold tracked; rw [← withTracker_notices (s := s) s.speed.counted]; rfl) r

/-! ### Runs of steps -/

/-- What every step of a list keeps, the list keeps. -/
theorem fold_keeps {α : Type} {p : FrameRun → α} {l : List FrameStep} (keep : ∀ c ∈ l, ∀ r, p (runStep x r c) = p r) :
    ∀ r, p (l.foldl (runStep x) r) = p r := by
  induction l with
  | nil => exact fun _ => rfl
  | cons c l ih =>
    exact fun r => (ih (fun d hd => keep d (List.mem_cons_of_mem _ hd)) _).trans (keep c List.mem_cons_self r)

/-- A step of a list without repetition, and the steps before and after it. -/
theorem exists_split {l : List FrameStep} (hn : l.Nodup) {b : FrameStep} (hb : b ∈ l) :
    ∃ m n, l = m ++ b :: n ∧ b ∉ m ∧ b ∉ n := by
  obtain ⟨m, n, rfl⟩ := List.append_of_mem hb
  rw [List.nodup_append, List.nodup_cons] at hn
  obtain ⟨-, ⟨hbn, -⟩, apart⟩ := hn
  exact ⟨m, n, rfl, fun hm => apart b hm b List.mem_cons_self rfl, hbn⟩

/-- What only `b` moves: the state it finds has it as it was, and what `b` makes of it stands. -/
theorem fold_moves {α : Type} {p : State → α} {l : List FrameStep} (hn : l.Nodup) {b : FrameStep} (hb : b ∈ l)
    (keep : ∀ c ∈ l, c ≠ b → ∀ r, p (runStep x r c).state = p r.state) (r : FrameRun) :
    ∃ m n, l = m ++ b :: n ∧ p (m.foldl (runStep x) r).state = p r.state ∧
      p (l.foldl (runStep x) r).state = p (runStep x (m.foldl (runStep x) r) b).state := by
  obtain ⟨m, n, rfl, hm, hn'⟩ := exists_split hn hb
  have part (k : List FrameStep) (sub : ∀ c ∈ k, c ∈ m ++ b :: n) (hk : b ∉ k) (r : FrameRun) :
      p (k.foldl (runStep x) r).state = p r.state :=
    fold_keeps (p := fun r => p r.state) (fun c hc => keep c (sub c hc) fun e => hk (e ▸ hc)) r
  refine ⟨m, n, rfl, part m (fun c hc => List.mem_append_left _ hc) hm r, ?_⟩
  rw [List.foldl_append, List.foldl_cons]
  exact part n (fun c hc => List.mem_append_right _ (List.mem_cons_of_mem _ hc)) hn' _

/-- What only one act moves is, in the middle of a run without repetition, as it was before or as it is after. -/
theorem fold_once {α : Type} {p : State → α} {m n : List FrameStep} (hn : (m ++ n).Nodup) (b : FrameStep)
    (keep : ∀ c ∈ m ++ n, c ≠ b → ∀ r, p (runStep x r c).state = p r.state) (r : FrameRun) :
    p (m.foldl (runStep x) r).state = p r.state ∨
      p ((m ++ n).foldl (runStep x) r).state = p (m.foldl (runStep x) r).state := by
  by_cases hm : b ∈ m
  · right
    have hb : b ∉ n := fun h => (List.nodup_append.mp hn).2.2 b hm b h rfl
    rw [List.foldl_append]
    exact fold_keeps (p := fun r => p r.state)
      (fun c hc => keep c (List.mem_append_right _ hc) fun e => hb (e ▸ hc)) _
  · left
    exact fold_keeps (p := fun r => p r.state)
      (fun c hc => keep c (List.mem_append_left _ hc) fun e => hm (e ▸ hc)) r

/-! ### The halves of a frame -/

/-- The steps of a frame before and after its control word. -/
structure Halves (routing : Bool) (l n : List FrameStep) : Prop where
  early : .act .control ∉ l
  late : .act .control ∉ n
  nodup : (l ++ n).Nodup
  all : ∀ b : FrameStep, b ≠ .act .control → b ∈ l ∨ b ∈ n
  first : routing = false → ∃ m, l = .audio :: m
  after : routing = true → (∃ m, n = .audio :: m) ∧ .act .meters ∉ l ∧ .act .fades ∉ l

theorem act_injective : Function.Injective FrameStep.act := fun _ _ e => FrameStep.act.inj e

theorem mem_map_act {a : FrameAct} {l : List FrameAct} : FrameStep.act a ∈ l.map .act ↔ a ∈ l :=
  List.mem_map_of_injective act_injective

theorem audio_notMem_map (l : List FrameAct) : FrameStep.audio ∉ l.map .act := by
  simp

/-- The audio first, the acts in their order after it. -/
theorem halves_plain {early late : List FrameAct} (nodup : (early ++ .control :: late).Nodup)
    (all : ∀ a, a ∈ early ++ .control :: late) : Halves false (.audio :: early.map .act) (late.map .act) := by
  rw [List.nodup_middle, List.nodup_cons, List.mem_append, not_or] at nodup
  obtain ⟨⟨he, hl⟩, nodup⟩ := nodup
  refine ⟨?_, fun h => hl (mem_map_act.mp h), ?_, fun b hb => ?_, fun _ => ⟨_, rfl⟩, fun h => (by cases h)⟩
  · rw [List.mem_cons, not_or]
    exact ⟨by simp, fun h => he (mem_map_act.mp h)⟩
  · rw [List.cons_append, ← List.map_append, List.nodup_cons]
    exact ⟨audio_notMem_map _, nodup.map act_injective⟩
  · cases b with
    | audio => exact .inl List.mem_cons_self
    | act a =>
      have ne : a ≠ .control := fun e => hb (by rw [e])
      have ha := all a
      rw [List.mem_append, List.mem_cons] at ha
      rcases ha with h | h | h
      · exact .inl (List.mem_cons_of_mem _ (mem_map_act.mpr h))
      · exact absurd h ne
      · exact .inr (mem_map_act.mpr h)

/-- The audio right after the control word, and the acts that use it after both. -/
theorem halves_routing {early late : List FrameAct} (nodup : (early ++ .control :: late).Nodup)
    (all : ∀ a, a ∈ early ++ .control :: late) : Halves true ((early.filter fun a => !needsAudio a).map .act)
      (.audio :: (early.filter needsAudio ++ late).map .act) := by
  rw [List.nodup_middle, List.nodup_cons, List.mem_append, not_or] at nodup
  obtain ⟨⟨he, hl⟩, nodup⟩ := nodup
  obtain ⟨ne, nl, apart⟩ := List.nodup_append.mp nodup
  refine ⟨fun h => he (List.mem_of_mem_filter (mem_map_act.mp h)), ?_, ?_, fun b hb => ?_, fun h => (by cases h),
    fun _ => ⟨⟨_, rfl⟩, ?_, ?_⟩⟩
  · rw [List.mem_cons, not_or]
    refine ⟨by simp, fun h => ?_⟩
    rcases List.mem_append.mp (mem_map_act.mp h) with h | h
    · exact he (List.mem_of_mem_filter h)
    · exact hl h
  · rw [List.nodup_middle, ← List.map_append, List.nodup_cons]
    refine ⟨audio_notMem_map _, List.Nodup.map act_injective ?_⟩
    rw [← List.append_assoc, List.nodup_append]
    refine ⟨?_, nl, fun a ha b hb => apart a ?_ b hb⟩
    · rw [List.nodup_append]
      refine ⟨ne.filter _, ne.filter _, fun a ha b hb e => ?_⟩
      have h1 := (List.mem_filter.mp ha).2
      have h2 := (List.mem_filter.mp hb).2
      rw [e, h2] at h1
      cases h1
    · exact (List.mem_append.mp ha).elim List.mem_of_mem_filter List.mem_of_mem_filter
  · cases b with
    | audio => exact .inr List.mem_cons_self
    | act a =>
      have ne : a ≠ .control := fun e => hb (by rw [e])
      have ha := all a
      rw [List.mem_append, List.mem_cons] at ha
      rcases ha with h | h | h
      · cases hu : needsAudio a with
        | true =>
          exact .inr (List.mem_cons_of_mem _ (mem_map_act.mpr
            (List.mem_append_left _ (List.mem_filter.mpr ⟨h, hu⟩))))
        | false => exact .inl (mem_map_act.mpr (List.mem_filter.mpr ⟨h, by rw [hu]; rfl⟩))
      · exact absurd h ne
      · exact .inr (List.mem_cons_of_mem _ (mem_map_act.mpr (List.mem_append_right _ h)))
  · exact fun h => by simpa [needsAudio] using mem_map_act.mp h
  · exact fun h => by simpa [needsAudio] using mem_map_act.mp h

theorem schedule_halves (order : FrameOrder) (routing : Bool) : ∃ l n,
    schedule order routing = l ++ .act .control :: n ∧ Halves routing l n := by
  have nodup := plan_nodup order
  have all := mem_plan order
  obtain ⟨early, late, hp⟩ := List.append_of_mem (all .control)
  rw [hp] at nodup
  have all' : ∀ a, a ∈ early ++ .control :: late := fun a => hp ▸ all a
  unfold schedule
  cases routing with
  | false =>
    refine ⟨_, _, ?_, halves_plain nodup all'⟩
    rw [hp]
    simp
  | true =>
    refine ⟨_, _, ?_, halves_routing nodup all'⟩
    have he : ∀ a ∈ early, (a != .control) = true := by
      rw [List.nodup_middle, List.nodup_cons, List.mem_append, not_or] at nodup
      obtain ⟨⟨out, -⟩, -⟩ := nodup
      exact fun a ha => bne_iff_ne.mpr fun e => out (e ▸ ha)
    have stop : (FrameAct.control != .control) = false := rfl
    rw [hp]
    dsimp only
    rw [if_pos rfl, List.takeWhile_append_of_pos he, List.dropWhile_append_of_pos he, List.takeWhile_cons, List.dropWhile_cons,
      stop]
    simp

end Sys2Proof.Machine
end

section
/-! What the acts of one half of a frame count: the lanes, the staleness counter and what the Gain Planner forms of it, the
DUCK line and its targets (R59, R63, R79, R82, R92, R93). -/

namespace Sys2Proof.Machine

variable {s t u v : State} {x : FrameCtx} {r : FrameRun} {m : List FrameStep}

/-! ### A lane -/

theorem LaneCounts.congr {l : Lane} {tgt tgt' : LaneValues} (h : LaneCounts l s tgt t) (hs : lanePart l u = lanePart l s)
    (ht : lanePart l v = lanePart l t) (targets : tgt'.ofLane l = tgt.ofLane l) : LaneCounts l u tgt' v := by
  obtain ⟨lane, currents⟩ := Prod.mk.inj hs
  obtain ⟨lane', currents'⟩ := Prod.mk.inj ht
  refine ⟨?_, ?_⟩
  · rw [lane', lane]; exact h.count
  · rw [currents', currents, lane, targets]; exact h.currents

theorem moveAll_eq (up down : Int) (cur tgt : Vector Int 24) :
    (moveAll up down cur tgt).toList = List.zipWith (towards up down) cur.toList tgt.toList := by
  apply List.ext_getElem
  · simp
  · intro i h1 h2
    simp [moveAll, moveToward, towards]

/-- A tick moves every current of its lane toward its target. -/
theorem moveLane_own (l : Lane) (s : State) : (moveLane l s).ofLane l = List.zipWith
    (towards (if l = .user ∨ l = .speed then (s.ramp.lanes.get l).first else (s.ramp.lanes.get l).second)
      (s.ramp.lanes.get l).first) (s.ramp.currents.ofLane l) (s.gain.targets.ofLane l) := by
  cases l with
  | user => exact moveAll_eq ..
  | speed => exact moveAll_eq ..
  | mute => exact moveAll_eq ..
  | duck => rfl

theorem countLane_counts (l : Lane) (s : State) : LaneCounts l s s.gain.targets (countLane l s) := by
  unfold countLane
  dsimp only
  split
  · rename_i due
    refine ⟨(setLane_get ..).trans ?_, ?_⟩
    · rw [if_pos rfl, if_pos due]
    · rw [if_pos due]
      exact moveLane_own l s
  · rename_i due
    refine ⟨(setLane_get ..).trans ?_, ?_⟩
    · rw [if_pos rfl, if_neg due]
    · rw [if_neg due]
      rfl

theorem ne_control {c : FrameStep} (hm : .act .control ∉ m) (hc : c ∈ m) : c ≠ .act .control := fun e => hm (e ▸ hc)

theorem ofLane_duck {p q : LaneValues} (e : p.duck = q.duck) : p.ofLane .duck = q.ofLane .duck := by
  unfold LaneValues.ofLane
  rw [e]

/-- The targets of a lane, in the middle of a half, are those before the half or those after it. -/
theorem targets_once {n : List FrameStep} (hc : .act .control ∉ m ++ n) (hn : (m ++ n).Nodup) (l : Lane) (r : FrameRun) :
    (m.foldl (runStep x) r).state.gain.targets.ofLane l = r.state.gain.targets.ofLane l ∨
      (m.foldl (runStep x) r).state.gain.targets.ofLane l =
        ((m ++ n).foldl (runStep x) r).state.gain.targets.ofLane l := by
  have early := around_steps x m (fun h => hc (List.mem_append_left _ h)) r
  cases l with
  | user => exact .inl (congrArg Vector.toList early.targets.1)
  | mute => exact .inl (congrArg Vector.toList early.targets.2)
  | speed =>
    exact (fold_once (p := planPart) hn (.act .staleness) (fun c h hb => plan_keeps (ne_control hc h) hb) r).imp
      (fun e => congrArg (fun p => p.2.2.1.toList) e) (fun e => congrArg (fun p => p.2.2.1.toList) e.symm)
  | duck =>
    exact (fold_once (p := linePart) hn (.act .duckLine) (fun c h hb => line_keeps (ne_control hc h) hb) r).imp
      (fun e => ofLane_duck (congrArg (fun p => p.2.1) e)) (fun e => ofLane_duck (congrArg (fun p => p.2.1) e.symm))

theorem half_lane_counts (hc : .act .control ∉ m) (hn : m.Nodup) {l : Lane} (hl : .act (.count l) ∈ m) (r : FrameRun) :
    LaneCounts l r.state r.state.gain.targets (m.foldl (runStep x) r).state ∨
      LaneCounts l r.state (m.foldl (runStep x) r).state.gain.targets (m.foldl (runStep x) r).state := by
  obtain ⟨a, b, e, before, after⟩ := fold_moves (x := x) (p := lanePart l) hn hl
    (fun c h hb => lane_keeps (ne_control hc h) hb) r
  subst e
  have counts := countLane_counts l (a.foldl (runStep x) r).state
  exact (targets_once (x := x) hc hn l r).imp (fun e => counts.congr before.symm after e.symm)
    fun e => counts.congr before.symm after e.symm

theorem half_lane_stands (hc : .act .control ∉ m) {l : Lane} (hl : .act (.count l) ∉ m) (r : FrameRun) :
    LaneStands l r.state (m.foldl (runStep x) r).state := by
  have stands := fold_keeps (p := fun r => lanePart l r.state)
    (fun c h => lane_keeps (x := x) (ne_control hc h) fun e => hl (e ▸ h)) r
  exact Prod.mk.inj stands

end Sys2Proof.Machine
end

section
/-! What one half of a frame makes of the tracker's record and of the DUCK line, and what the Gain Planner forms of them
(R79, R81, R82, R92, R93). -/

namespace Sys2Proof.Machine

variable {s t u v : State} {x : FrameCtx} {r : FrameRun} {m : List FrameStep}

/-! ### The tracker -/

/-- What the staleness counter moves, and what it reads. -/
def trackPart (s : State) :
    (SpeedTracker × PerZone ZoneRecord × Vector Int 24 × Vector ChannelRecord 24) × Bool × Bool :=
  (planPart s, s.notices.pending.speedLost, s.notices.enabled.speedLost)

theorem trackPart_eq_iff : trackPart t = trackPart s ↔ t.speed = s.speed ∧ t.gain.zones = s.gain.zones ∧
    t.gain.targets.speed = s.gain.targets.speed ∧ t.channels = s.channels ∧
    t.notices.pending.speedLost = s.notices.pending.speedLost ∧ t.notices.enabled.speedLost = s.notices.enabled.speedLost := by
  unfold trackPart planPart
  simp only [Prod.mk.injEq, and_assoc]

theorem withTracker_cases (s : State) (r : SpeedTracker) : (s.withTracker r).speed = r ∧
    (s.withTracker r).channels = s.channels ∧
    (s.withTracker r).gain.zones = (if r.effective = s.speed.effective then s.gain.zones else
      { a := s.gain.zones.a.atSpeed r.effective, b := s.gain.zones.b.atSpeed r.effective }) ∧
    (s.withTracker r).gain.targets.speed = if r.effective = s.speed.effective then s.gain.targets.speed else
      Vector.ofFn fun c : Chan => speedTarget
        (PerZone.get { a := s.gain.zones.a.atSpeed r.effective, b := s.gain.zones.b.atSpeed r.effective } s.channels[c].zone)
        s.channels[c] := by
  unfold State.withTracker State.atEffectiveSpeed
  split <;> exact ⟨rfl, rfl, rfl, rfl⟩

theorem trackPart_tracked (e : trackPart t = trackPart s) : trackPart (tracked t) = trackPart (tracked s) := by
  obtain ⟨speed, zones, targets, channels, lost, on⟩ := trackPart_eq_iff.mp e
  obtain ⟨speed1, channels1, zones1, targets1⟩ := withTracker_cases s s.speed.counted
  obtain ⟨speed2, channels2, zones2, targets2⟩ := withTracker_cases t t.speed.counted
  have on1 : (s.withTracker s.speed.counted).notices = s.notices := withTracker_notices _
  have on2 : (t.withTracker t.speed.counted).notices = t.notices := withTracker_notices _
  refine trackPart_eq_iff.mpr ⟨?_, ?_, ?_, ?_, ?_, ?_⟩
  · exact speed2.trans (by rw [speed]; exact speed1.symm)
  · exact zones2.trans (by rw [speed, zones]; exact zones1.symm)
  · exact targets2.trans (by rw [speed, zones, targets, channels]; exact targets1.symm)
  · exact channels2.trans (channels.trans channels1.symm)
  · unfold tracked
    dsimp only
    rw [lost, on, speed]
  · unfold tracked
    dsimp only
    rw [on1, on2, on]

theorem trackPart_countStaleness (s : State) : trackPart (countStaleness s) = trackPart (tracked s) := by
  have moves := (movesPages_countStaleness (s := s)).only
  exact trackPart_eq_iff.mpr ⟨moves.speed, by rw [moves.gain], by rw [moves.gain], moves.channels,
    moves.kinds .speedLost (by decide), by rw [moves.enabled]⟩

theorem track_keeps {c : FrameStep} (hc : c ≠ .act .control) (hb : c ≠ .act .staleness) (r : FrameRun) :
    trackPart (runStep x r c).state = trackPart r.state := by
  refine Prod.ext (plan_keeps hc hb r) (Prod.ext (speedLost_keeps hc hb r) ?_)
  exact congrArg NoticeSet.speedLost (around_step x r hc).notices.1

/-- The tracker counts the frame where its act lies in this half, and stands where it does not. -/
theorem half_track (hc : .act .control ∉ m) (hn : m.Nodup) (r : FrameRun) :
    trackPart (m.foldl (runStep x) r).state =
      trackPart (if .act .staleness ∈ m then tracked r.state else r.state) := by
  split
  · rename_i hs
    obtain ⟨a, b, e, before, after⟩ := fold_moves (x := x) (p := trackPart) hn hs
      (fun c h hb => track_keeps (ne_control hc h) hb) r
    exact after.trans ((trackPart_countStaleness _).trans (trackPart_tracked before))
  · rename_i hs
    exact fold_keeps (p := fun r => trackPart r.state) (fun c h => track_keeps (ne_control hc h) fun e => hs (e ▸ h)) r

/-- From `s` to `u` the zones and the speed targets follow the tracker's record. -/
structure SpeedFollows (s u : State) : Prop where
  zones : u.gain.zones = (s.withTracker u.speed).gain.zones
  targets : u.gain.targets.speed = (s.withTracker u.speed).gain.targets.speed

theorem withTracker_self (s : State) : s.withTracker s.speed = s := by
  unfold State.withTracker
  rw [if_pos rfl]

theorem speedFollows_of_track {b : Prop} [Decidable b] (e : trackPart u = trackPart (if b then tracked s else s)) :
    SpeedFollows s u ∧ u.speed = if b then s.speed.counted else s.speed := by
  obtain ⟨speed, zones, targets, -, -, -⟩ := trackPart_eq_iff.mp e
  by_cases h : b
  · rw [if_pos h] at speed zones targets ⊢
    have now : u.speed = s.speed.counted := speed.trans (withTracker_cases s _).1
    exact ⟨⟨by rw [now, zones]; rfl, by rw [now, targets]; rfl⟩, now⟩
  · rw [if_neg h] at speed zones targets ⊢
    exact ⟨⟨by rw [speed, zones, withTracker_self], by rw [speed, targets, withTracker_self]⟩, speed⟩

/-! ### The DUCK line -/

/-- What the sampling of the DUCK line moves, and what it reads. -/
def dropPart (s : State) : (DuckLine × PerZone Int × Bool × (Zone → Bool → Int)) × Bool × Bool :=
  (linePart s, s.notices.pending.duckLine, s.notices.enabled.duckLine)

theorem dropPart_eq_iff : dropPart t = dropPart s ↔ t.duck = s.duck ∧ t.gain.targets.duck = s.gain.targets.duck ∧
    t.pins.duck = s.pins.duck ∧
    (∀ z level, duckTarget (t.gain.zones.get z) level = duckTarget (s.gain.zones.get z) level) ∧
    t.notices.pending.duckLine = s.notices.pending.duckLine ∧ t.notices.enabled.duckLine = s.notices.enabled.duckLine := by
  unfold dropPart linePart
  simp only [Prod.mk.injEq, and_assoc, funext_iff]

/-- From `s` to `u` the sampling of the DUCK line counts a frame, and both duck targets and DUCK_LINE follow (R79, R81,
R82). -/
structure LineSampled (s u : State) : Prop where
  counts : 1 < s.duck.count → u.duck = { s.duck with count := s.duck.count - 1 }
  sampled : s.duck.count ≤ 1 → u.duck.count = 48 ∧ u.duck.previous = s.pins.duck ∧
    u.duck.level = if s.pins.duck = s.duck.previous then s.pins.duck else s.duck.level
  stands : u.duck.level = s.duck.level → u.gain.targets.duck = s.gain.targets.duck
  changes : u.duck.level ≠ s.duck.level → ∀ z : Zone,
    u.gain.targets.duck.get z = duckTarget (s.gain.zones.get z) u.duck.level
  notice : u.notices.pending.duckLine = true ↔ s.notices.pending.duckLine = true ∨
    (s.notices.enabled.duckLine = true ∧ u.duck.level ≠ s.duck.level)

theorem LineSampled.congr {s' u' : State} (h : LineSampled s u) (hs : dropPart s' = dropPart s) (hu : dropPart u' = dropPart u) :
    LineSampled s' u' := by
  obtain ⟨duck, targets, pin, forms, notice, on⟩ := dropPart_eq_iff.mp hs
  obtain ⟨duck', targets', -, -, notice', -⟩ := dropPart_eq_iff.mp hu
  refine ⟨?_, ?_, ?_, fun ne z => ?_, ?_⟩
  · rw [duck, duck']; exact h.counts
  · rw [duck, duck', pin]; exact h.sampled
  · rw [duck, duck', targets, targets']; exact h.stands
  · rw [targets', duck', forms]
    exact h.changes (by rwa [duck, duck'] at ne) z
  · rw [notice, notice', on, duck, duck']; exact h.notice

theorem lineSampled_countDuck (s : State) : LineSampled s (countDuck s) := by
  unfold countDuck
  by_cases due : s.duck.count ≤ 1
  · rw [if_pos due]
    unfold takeDuckSample
    dsimp only
    by_cases change : (s.pins.duck != s.duck.level && s.pins.duck == s.duck.previous) = true
    · have change' := change
      rw [if_pos change, notify_duckLine]
      simp only [Bool.and_eq_true, bne_iff_ne, beq_iff_eq] at change
      obtain ⟨ne, twice⟩ := change
      rw [if_pos change']
      refine ⟨fun h => absurd due (by omega), fun _ => ⟨rfl, rfl, (if_pos twice).symm⟩, fun e => absurd e ne, fun _ z => ?_, ?_⟩
      · cases z <;> rfl
      · exact (Bool.or_eq_true _ _).to_iff.trans (or_congr_right (and_iff_left ne).symm)
    · have stays : s.duck.level = if s.pins.duck = s.duck.previous then s.pins.duck else s.duck.level := by
        split
        · rename_i twice
          by_contra ne
          exact change (by rw [Bool.and_eq_true, bne_iff_ne, beq_iff_eq]; exact ⟨Ne.symm ne, twice⟩)
        · rfl
      rw [if_neg change, if_neg change]
      refine ⟨fun h => absurd due (by omega), fun _ => ⟨rfl, rfl, stays⟩, fun _ => rfl, fun ne => absurd rfl ne, ?_⟩
      simp
  · rw [if_neg due]
    refine ⟨fun _ => rfl, fun h => absurd h due, fun _ => rfl, fun ne => absurd rfl ne, ?_⟩
    simp

theorem drop_keeps {c : FrameStep} (hc : c ≠ .act .control) (hb : c ≠ .act .duckLine) (r : FrameRun) :
    dropPart (runStep x r c).state = dropPart r.state := by
  refine Prod.ext (line_keeps hc hb r) (Prod.ext (duckLine_keeps hc hb r) ?_)
  exact congrArg NoticeSet.duckLine (around_step x r hc).notices.1

/-- The line is sampled where its act lies in this half, and stands where it does not. -/
theorem half_drop (hc : .act .control ∉ m) (hn : m.Nodup) (r : FrameRun) :
    (.act .duckLine ∈ m → LineSampled r.state (m.foldl (runStep x) r).state) ∧
      (.act .duckLine ∉ m → dropPart (m.foldl (runStep x) r).state = dropPart r.state) := by
  constructor
  · intro hs
    obtain ⟨a, b, e, before, after⟩ := fold_moves (x := x) (p := dropPart) hn hs
      (fun c h hb => drop_keeps (ne_control hc h) hb) r
    exact (lineSampled_countDuck _).congr before.symm after
  · intro hs
    exact fold_keeps (p := fun r => dropPart r.state) (fun c h => drop_keeps (ne_control hc h) fun e => hs (e ▸ h)) r

/-- A half of a frame, its acts seen as one change (R66, R92, R82). -/
theorem half_acts (hc : .act .control ∉ m) (hn : m.Nodup) (r : FrameRun) :
    FrameActs r.state (m.foldl (runStep x) r).state := by
  have follows := (speedFollows_of_track (half_track (x := x) hc hn r)).1
  refine (around_steps x m hc r).frameActs ⟨follows.zones, follows.targets, ?_, ?_⟩
  all_goals
    obtain ⟨sampled, stands⟩ := half_drop (x := x) hc hn r
    by_cases hs : .act .duckLine ∈ m
  · exact (sampled hs).stands
  · exact fun _ => (dropPart_eq_iff.mp (stands hs)).2.1
  · exact (sampled hs).changes
  · exact fun ne => absurd (by rw [(dropPart_eq_iff.mp (stands hs)).1]) ne

end Sys2Proof.Machine
end

section
/-! What one half of a frame makes of the signal, the request bit and the meters (R14, R28, R31, R161, R163, R167). -/

namespace Sys2Proof.Machine

variable {s t u v : State} {x : FrameCtx} {r : FrameRun} {m : List FrameStep}

/-! ### The signal -/

/-- What the audio moves of the Ring Port, with CHECK. -/
def wavePart (s : State) : Vector Sample 8 × Vector Delay 24 × Option (Vector Sample 32 × BitVec 16) :=
  (s.port.held, s.port.delays, s.ringOut.map fun o => (o.frame.fields.slots, o.frame.check))

theorem wavePart_eq_iff : wavePart t = wavePart s ↔ t.port.held = s.port.held ∧ t.port.delays = s.port.delays ∧
    t.ringOut.map (fun o => (o.frame.fields.slots, o.frame.check)) =
      s.ringOut.map (fun o => (o.frame.fields.slots, o.frame.check)) := by
  unfold wavePart
  simp only [Prod.mk.injEq]

theorem wavePart_pages (h : OnlyPagesMove s t) : wavePart t = wavePart s := by
  unfold wavePart
  rw [h.port, h.ringOut]

theorem wave_keeps {c : FrameStep} (hc : c ≠ .act .control) (hb : c ≠ .audio) (r : FrameRun) :
    wavePart (runStep x r c).state = wavePart r.state := by
  cases c with
  | audio => exact absurd rfl hb
  | act a =>
    cases a with
    | control => exact absurd rfl hc
    | request =>
      refine wavePart_eq_iff.mpr ?_
      show (requestAct r.state).port.held = _ ∧ (requestAct r.state).port.delays = _ ∧ (requestAct r.state).ringOut.map _ = _
      unfold requestAct
      split
      · refine ⟨rfl, rfl, ?_⟩
        rw [mapOut_ringOut, Option.map_map]
        rfl
      · exact ⟨rfl, rfl, rfl⟩
    | meters =>
      obtain ⟨o, k, e⟩ := metersAct_parts x.view r.runs r.state
      show wavePart (metersAct x.view r.runs r.state) = _
      rw [e]
      rfl
    | fades => exact wavePart_pages (onlyPages_fadesAct _ _)
    | count l =>
      obtain ⟨y, cur, e, -⟩ := countLane_parts l r.state
      show wavePart (countLane l r.state) = _
      rw [e]
      rfl
    | staleness =>
      refine (wavePart_pages movesPages_countStaleness.only).trans ?_
      unfold wavePart tracked State.withTracker
      split <;> rfl
    | duckLine =>
      obtain ⟨d, y, k, e⟩ := countDuck_parts r.state
      show wavePart (countDuck r.state) = _
      rw [e]
      rfl

theorem half_wave (hc : .act .control ∉ m) (ha : .audio ∉ m) (r : FrameRun) :
    wavePart (m.foldl (runStep x) r).state = wavePart r.state :=
  fold_keeps (p := fun r => wavePart r.state) (fun _ h => wave_keeps (ne_control hc h) fun e => ha (e ▸ h)) r

theorem half_runs (ha : .audio ∉ m) (r : FrameRun) : (m.foldl (runStep x) r).runs = r.runs := by
  refine fold_keeps (p := fun r => r.runs) (fun c h _ => ?_) r
  cases c with
  | audio => exact absurd h ha
  | act a => cases a <;> rfl

theorem half_reset (hc : .act .control ∉ m) (r : FrameRun) : (m.foldl (runStep x) r).reset = r.reset := by
  refine fold_keeps (p := fun r => r.reset) (fun c h _ => ?_) r
  cases c with
  | audio => rfl
  | act a =>
    cases a with
    | control => exact absurd h hc
    | request | meters | fades | count | staleness | duckLine => rfl

/-! ### The request bit -/

theorem storeAudio_out (view : View) (taken : Vector Sample 8) (runs : Runs) (s : State) :
    (storeAudio view taken runs s).ringOut =
      s.ringOut.map (onFields fun f => { f with slots := slotsOut s view f.slots }) := by
  unfold storeAudio
  rw [mapOut_ringOut]

theorem audioAct_out (x : FrameCtx) (r : FrameRun) : (audioAct x r).state.ringOut =
    r.state.ringOut.map (onFields fun f => { f with slots := slotsOut r.state x.view f.slots }) := by
  unfold audioAct
  exact storeAudio_out ..

/-- The SERVICE field of the frame in hand. -/
def servicePart (s : State) : Option (BitVec 8) := s.ringOut.map fun o => o.frame.fields.service

theorem service_slots (g : FrameFields → Vector Sample 32) (o : Option OutFrame) :
    (o.map (onFields fun f => { f with slots := g f })).map (fun o => o.frame.fields.service) =
      o.map fun o => o.frame.fields.service := by
  rw [Option.map_map]
  rfl

theorem service_keeps {c : FrameStep} (hc : c ≠ .act .control) (hb : c ≠ .act .request) (r : FrameRun) :
    servicePart (runStep x r c).state = servicePart r.state := by
  cases c with
  | audio =>
    rw [show runStep x r .audio = audioAct x r from rfl]
    unfold servicePart
    rw [audioAct_out]
    exact service_slots _ _
  | act a =>
    cases a with
    | control => exact absurd rfl hc
    | request => exact absurd rfl hb
    | meters =>
      obtain ⟨o, k, e⟩ := metersAct_parts x.view r.runs r.state
      show servicePart (metersAct x.view r.runs r.state) = _
      rw [e]
      rfl
    | fades => exact congrArg (Option.map _) (onlyPages_fadesAct _ _).ringOut
    | count l =>
      obtain ⟨y, cur, e, -⟩ := countLane_parts l r.state
      show servicePart (countLane l r.state) = _
      rw [e]
      rfl
    | staleness =>
      refine (congrArg (Option.map _) movesPages_countStaleness.only.ringOut).trans ?_
      unfold tracked State.withTracker
      split <;> rfl
    | duckLine =>
      obtain ⟨d, y, k, e⟩ := countDuck_parts r.state
      show servicePart (countDuck r.state) = _
      rw [e]
      rfl

theorem servicePart_requestAct (s : State) : servicePart (requestAct s) =
    if anyKind s.notices.pending then (servicePart s).map (· ||| 128#8) else servicePart s := by
  unfold requestAct servicePart
  split
  · rw [mapOut_ringOut, Option.map_map, Option.map_map]
    rfl
  · rfl

/-- The request bit is set where the act finds a pending notice (R163); the state it finds lies within the half. -/
theorem half_request (hc : .act .control ∉ m) (hn : m.Nodup) (hs : .act .request ∈ m) (r : FrameRun) :
    ∃ y, Around r.state y ∧ Around y (m.foldl (runStep x) r).state ∧
      servicePart (m.foldl (runStep x) r).state =
        if anyKind y.notices.pending then (servicePart r.state).map (· ||| 128#8) else servicePart r.state := by
  obtain ⟨a, b, e, before, after⟩ := fold_moves (x := x) (p := servicePart) hn hs
    (fun c h hb => service_keeps (ne_control hc h) hb) r
  subst e
  have out := not_or.mp fun h => hc (List.mem_append.mpr h)
  refine ⟨(a.foldl (runStep x) r).state, around_steps x a out.1 r, ?_, ?_⟩
  · rw [List.foldl_append]
    exact around_steps x _ out.2 _
  · rw [after, ← before]
    exact servicePart_requestAct _

theorem half_service_stands (hc : .act .control ∉ m) (hs : .act .request ∉ m) (r : FrameRun) :
    servicePart (m.foldl (runStep x) r).state = servicePart r.state :=
  fold_keeps (p := fun r => servicePart r.state) (fun _ h => service_keeps (ne_control hc h) fun e => hs (e ▸ h)) r

/-! ### The meters -/

/-- What the meters' act moves, and what it reads. -/
def gaugePart (s : State) : OutputStage × Bool × Bool :=
  (s.output, s.notices.pending.clip, s.notices.enabled.clip)

theorem gaugePart_eq_iff : gaugePart t = gaugePart s ↔ t.output = s.output ∧
    t.notices.pending.clip = s.notices.pending.clip ∧ t.notices.enabled.clip = s.notices.enabled.clip := by
  unfold gaugePart
  simp only [Prod.mk.injEq]

theorem Metered.congr {runs : Chan → ChannelRun} {view : View} {s' u' : State} (h : Metered runs view s u)
    (hs : gaugePart s' = gaugePart s) (hu : gaugePart u' = gaugePart u) : Metered runs view s' u' := by
  obtain ⟨output, clip, on⟩ := gaugePart_eq_iff.mp hs
  obtain ⟨output', clip', -⟩ := gaugePart_eq_iff.mp hu
  refine ⟨?_, ?_, ?_⟩
  · rw [output, output']; exact h.clips
  · rw [clip, clip', on, output, output']; exact h.notice
  · rw [output, output']; exact h.peaks

/-- A running maximum over the channels that `p` picks. -/
theorem foldl_peak (p : Chan → Option Nat) (l : List Chan) : ∀ b : Nat,
    let top := l.foldl (fun b c => (p c).elim b (max b)) b
    b ≤ top ∧ (∀ c ∈ l, ∀ k ∈ p c, k ≤ top) ∧ (top = b ∨ ∃ c ∈ l, p c = some top) := by
  induction l with
  | nil => exact fun b => ⟨le_rfl, by simp, .inl rfl⟩
  | cons d l ih =>
    intro b
    obtain ⟨above, all, some⟩ := ih ((p d).elim b (max b))
    dsimp only at above all some ⊢
    rw [List.foldl_cons]
    generalize l.foldl (fun b c => (p c).elim b (max b)) ((p d).elim b (max b)) = top at above all some
    cases hd : p d with
    | none =>
      rw [hd] at above some
      refine ⟨above, fun c hc k hk => ?_, some.imp_right fun ⟨c, hc, e⟩ => ⟨c, List.mem_cons_of_mem _ hc, e⟩⟩
      obtain rfl | hc := List.mem_cons.mp hc
      · rw [hd] at hk; cases hk
      · exact all c hc k hk
    | some n =>
      rw [hd] at above some
      simp only [Option.elim_some] at above some
      refine ⟨le_trans (le_max_left _ _) above, fun c hc k hk => ?_, ?_⟩
      · obtain rfl | hc := List.mem_cons.mp hc
        · rw [hd] at hk
          cases hk
          exact le_trans (le_max_right _ _) above
        · exact all c hc k hk
      · rcases some with e | ⟨c, hc, e⟩
        · rcases max_choice b n with h | h
          · exact .inl (e.trans h)
          · exact .inr ⟨d, List.mem_cons_self, by rw [hd, e, h]⟩
        · exact .inr ⟨c, List.mem_cons_of_mem _ hc, e⟩

/-- The runs of the channels enabled in `view`. -/
def RunsOf (view : View) (runs : Chan → ChannelRun) (all : Runs) : Prop :=
  ∀ c : Chan, all[c] = if view[c].out.isSome then some (runs c) else none

theorem clipsAfter_at {view : View} {runs : Chan → ChannelRun} {all : Runs} (h : RunsOf view runs all) (c : Chan) :
    (clipsAfter s all)[c] = if view[c].out ≠ none ∧ (runs c).clipped = true then min 65535 (s.output.clips[c] + 1)
      else s.output.clips[c] := by
  have e : (clipsAfter s all)[c] = match all[c] with
    | some r => if r.clipped then min 65535 (s.output.clips[c] + 1) else s.output.clips[c]
    | none => s.output.clips[c] := by
    unfold clipsAfter
    exact Vector.getElem_ofFn ..
  rw [e, h c]
  cases view[c].out <;> simp

theorem peakAfter_range {view : View} {runs : Chan → ChannelRun} {all : Runs} (h : RunsOf view runs all) (z : Zone) :
    s.output.peaks.get z ≤ peakAfter s view all z ∧
    (∀ c : Chan, view[c].out ≠ none → view[c].zone = z → magnitude (runs c).out ≤ peakAfter s view all z) ∧
    (peakAfter s view all z = s.output.peaks.get z ∨ ∃ c : Chan, view[c].out ≠ none ∧ view[c].zone = z ∧
      peakAfter s view all z = magnitude (runs c).out) := by
  let p : Chan → Option Nat := fun c =>
    if view[c].out ≠ none ∧ view[c].zone = z then some (magnitude (runs c).out) else none
  have e : peakAfter s view all z =
      (List.finRange 24).foldl (fun b c => (p c).elim b (max b)) (s.output.peaks.get z) := by
    unfold peakAfter
    congr
    funext b c
    rw [h c]
    show _ = (if view[c].out ≠ none ∧ view[c].zone = z then some (magnitude (runs c).out) else none).elim b (max b)
    rw [apply_ite (fun o : Option Nat => o.elim b (max b))]
    cases view[c].out <;> simp
  obtain ⟨above, every, some⟩ := foldl_peak p (List.finRange 24) (s.output.peaks.get z)
  rw [e]
  refine ⟨above, fun c on hz => every c (List.mem_finRange c) _ (if_pos ⟨on, hz⟩), some.imp_right fun ⟨c, _, hc⟩ => ?_⟩
  by_cases on : view[c].out ≠ none ∧ view[c].zone = z
  · exact ⟨c, on.1, on.2, (Option.some.inj ((if_pos on).symm.trans hc)).symm⟩
  · exact absurd ((if_neg on).symm.trans hc) (by simp)

theorem metersAct_gauges (view : View) (all : Runs) (s : State) : (metersAct view all s).output =
      { clips := clipsAfter s all, peaks := { a := peakAfter s view all .a, b := peakAfter s view all .b } } ∧
    (metersAct view all s).notices.pending.clip = (s.notices.pending.clip ||
      (newClip s.output.clips (clipsAfter s all) && s.notices.enabled.clip)) := by
  unfold metersAct notifyIf
  dsimp only
  cases h : newClip s.output.clips (clipsAfter s all)
  · exact ⟨rfl, (Bool.or_false _).symm⟩
  · rw [if_pos rfl, notify_clip]
    exact ⟨rfl, rfl⟩

/-- The marks and written samples of the frame reach the meters. -/
theorem metered_metersAct {view : View} {runs : Chan → ChannelRun} {all : Runs} (h : RunsOf view runs all) (s : State) :
    Metered runs view s (metersAct view all s) := by
  obtain ⟨output, clip⟩ := metersAct_gauges view all s
  refine ⟨fun c => ?_, ?_, fun z => ?_⟩
  · rw [output]
    exact clipsAfter_at h c
  · rw [clip, output, Bool.or_eq_true, Bool.and_eq_true, and_comm]
    refine or_congr_right (and_congr_right fun _ => ?_)
    unfold newClip
    simp
  · rw [output]
    cases z
    · exact peakAfter_range h .a
    · exact peakAfter_range h .b

theorem gauge_keeps {c : FrameStep} (hc : c ≠ .act .control) (hb : c ≠ .act .meters) (r : FrameRun) :
    gaugePart (runStep x r c).state = gaugePart r.state := by
  refine Prod.ext (meter_keeps hc hb r) (Prod.ext (clip_keeps hc hb r) ?_)
  exact congrArg NoticeSet.clip (around_step x r hc).notices.1

/-- The meters take the frame where their act lies in this half, and stand where it does not. -/
theorem half_meters (hc : .act .control ∉ m) (ha : .audio ∉ m) (hn : m.Nodup) {runs : Chan → ChannelRun}
    (r : FrameRun) (h : RunsOf x.view runs r.runs) :
    (.act .meters ∈ m → Metered runs x.view r.state (m.foldl (runStep x) r).state) ∧
      (.act .meters ∉ m → gaugePart (m.foldl (runStep x) r).state = gaugePart r.state) := by
  constructor
  · intro hs
    obtain ⟨a, b, e, before, after⟩ := fold_moves (x := x) (p := gaugePart) hn hs
      (fun c h hb => gauge_keeps (ne_control hc h) hb) r
    subst e
    have same := half_runs (x := x) (fun h => ha (List.mem_append_left _ h)) r
    exact (metered_metersAct (by rw [same]; exact h) _).congr before.symm after
  · intro hs
    exact fold_keeps (p := fun r => gaugePart r.state) (fun c h => gauge_keeps (ne_control hc h) fun e => hs (e ▸ h)) r

end Sys2Proof.Machine
end

section
/-! The audio of a frame: its runs, its slots, output delays and held samples (R28, R31, R32). -/

namespace Sys2Proof.Machine

variable {s t u v : State} {x : FrameCtx} {r : FrameRun} {m : List FrameStep}

/-! ### The runs -/

theorem frameRun_congr {arrived arrived' s' : State} (currents : arrived'.ramp.currents = arrived.ramp.currents)
    (slots : arrived'.sched.slots = arrived.sched.slots) (sched : s'.sched = s.sched) (equaliser : s'.equaliser = s.equaliser)
    (view : View) (taken : Vector Sample 8) (c : Chan) :
    frameRun arrived' s' view taken c = frameRun arrived s view taken c := by
  have step : occupied arrived' = occupied arrived := by unfold occupied; rw [slots]
  unfold frameRun runChannel runVoicing fadeOf stepsIn coeffsOf programOf
  rw [step, currents, sched, equaliser]

theorem runOf_eq {arrived : State} {taken : Vector Sample 8} (currents : x.currents = arrived.ramp.currents)
    (step : x.step = occupied arrived) (samples : sourceSamples s x.slots = taken) :
    runOf x s = frameRun arrived s x.view taken := by
  funext c
  unfold runOf frameRun
  rw [currents, step, samples]

theorem runsOf_audioAct (x : FrameCtx) (r : FrameRun) : RunsOf x.view (runOf x r.state) (audioAct x r).runs :=
  audioAct_runs x r

/-! ### The samples taken -/

theorem sourceSamples_intact (s : State) (slots : Vector Sample 32) : sourceSamples s (some slots) = samplesFrom s slots := by
  unfold sourceSamples samplesFrom
  congr
  funext i
  unfold sourceSample
  cases s.sources[i] <;> rfl

theorem sourceSamples_damaged (s : State) : sourceSamples s none = samplesHeld s := by
  unfold sourceSamples samplesHeld
  congr
  funext i
  unfold sourceSample
  cases s.sources[i] <;> rfl

theorem samplesFrom_at (s : State) (slots : Vector Sample 32) {i : SourceId} {n : AudioSlot} (h : s.sources[i] = some n) :
    (samplesFrom s slots)[i] = slots[n] := by
  have e : (samplesFrom s slots)[i] = match s.sources[i] with
    | some k => slots[k]
    | none => 0 := Vector.getElem_ofFn ..
  rw [e, h]

theorem samplesHeld_at (s : State) {i : SourceId} (h : s.sources[i] ≠ none) : (samplesHeld s)[i] = s.port.held[i] := by
  have e : (samplesHeld s)[i] = if s.sources[i] = none then 0 else s.port.held[i] := Vector.getElem_ofFn ..
  rw [e, if_neg h]

theorem heldAfter_at (taken : Vector Sample 8) (i : SourceId) :
    (heldAfter s taken)[i] = if s.sources[i] = none then s.port.held[i] else taken[i] := by
  have e : (heldAfter s taken)[i] = if s.sources[i].isSome then taken[i] else s.port.held[i] := Vector.getElem_ofFn ..
  rw [e]
  cases s.sources[i] <;> rfl

theorem audioAct_held (x : FrameCtx) (r : FrameRun) :
    (audioAct x r).state.port.held = heldAfter r.state (sourceSamples r.state x.slots) := by
  unfold audioAct storeAudio
  rw [mapOut_port]

/-! ### The slots -/

/-- No slot is written by two channels (R32). -/
def WrittenOnce (view : View) : Prop := ∀ (c d : Chan) (k : AudioSlot), view[c].out = some k → view[d].out = some k → c = d

theorem slotsOut_at (view : View) (slots : Vector Sample 32) (k : AudioSlot) :
    (slotsOut s view slots)[k] = ((writerOf view k).map (delayedSample s)).getD slots[k] := by
  have e : (slotsOut s view slots)[k] = match writerOf view k with
    | some c => delayedSample s c
    | none => slots[k] := Vector.getElem_ofFn ..
  rw [e]
  cases writerOf view k <;> rfl

theorem slotsOut_written {view : View} (once : WrittenOnce view) (slots : Vector Sample 32) {c : Chan} {k : AudioSlot}
    (h : view[c].out = some k) : (slotsOut s view slots)[k] = (s.port.delays[c].older).getD 0 := by
  have writer : writerOf view k = some c := by
    cases hw : writerOf view k with
    | none =>
      have := List.find?_eq_none.mp hw c (List.mem_finRange c)
      exact absurd (beq_iff_eq.mpr h) this
    | some d =>
      have hd := List.find?_some (p := fun c : Chan => view[c].out == some k) hw
      rw [once d c k (beq_iff_eq.mp hd) h]
  rw [slotsOut_at, writer]
  rfl

theorem slotsOut_passed {view : View} (slots : Vector Sample 32) {k : AudioSlot} (h : ∀ c : Chan, view[c].out ≠ some k) :
    (slotsOut s view slots)[k] = slots[k] := by
  have writer : writerOf view k = none := List.find?_eq_none.mpr fun c _ hc => h c (beq_iff_eq.mp hc)
  rw [slotsOut_at, writer]
  rfl

/-- How the audio leaves the slots and the delays, where nothing moves them afterwards. -/
theorem audioMoves_audioAct {f o : FrameFields} {out : OutFrame} (once : WrittenOnce x.view)
    (hand : r.state.ringOut = some out) (fields : out.frame.fields.slots = f.slots)
    (slots : t.ringOut.map (fun y => y.frame.fields.slots) = (audioAct x r).state.ringOut.map fun y => y.frame.fields.slots)
    (leaves : t.ringOut.map (fun y => y.frame.fields.slots) = some o.slots)
    (delays : ∀ c : Chan, x.view[c].out ≠ none → t.port.delays[c] = (audioAct x r).state.port.delays[c])
    {arrived : State} {taken : Vector Sample 8} (same : runOf x r.state = frameRun arrived r.state x.view taken) :
    AudioMoves arrived r.state x.view taken f o t := by
  have out' : o.slots = slotsOut r.state x.view f.slots := by
    rw [audioAct_out, hand] at slots
    have := leaves.symm.trans slots
    rw [← fields]
    exact Option.some.inj this
  refine ⟨fun c k h => ?_, fun k h => ?_, fun c h => ?_⟩
  · rw [out', slotsOut_written once _ h]
  · rw [out', slotsOut_passed _ h]
  · rw [delays c h, audioAct_delays, if_pos (Option.isSome_iff_ne_none.mpr h), same]

end Sys2Proof.Machine
end

section
/-! What page requests and grants leave of a running channel: its page, its chain and the fade it is in (R122, R132, R134).
-/

namespace Sys2Proof.Machine

variable {s t u v : State} {c : Chan}

/-- Channel `c` goes on from `s` to `t`: on the same active page, with the same active chain; a fade it is in stands, but
for its next target. -/
structure GoesOn (c : Chan) (s t : State) : Prop where
  page : activePage t.sched.switch[c] = activePage s.sched.switch[c]
  active : t.equaliser.active[c] = s.equaliser.active[c]
  fading : ∀ (p : Page) (i : FadeSlot) (f : Fade), s.sched.switch[c] = .fading p i → s.sched.slots[i] = some f →
    t.sched.switch[c] = .fading p i ∧ t.equaliser.target[c] = s.equaliser.target[c] ∧
      ∃ n, t.sched.slots[i] = some { f with next := n }

theorem GoesOn.refl (c : Chan) (s : State) : GoesOn c s s := ⟨rfl, rfl, fun _ _ f hs hf => ⟨hs, rfl, f.next, hf⟩⟩

theorem GoesOn.trans (h : GoesOn c s t) (g : GoesOn c t u) : GoesOn c s u := by
  refine ⟨g.page.trans h.page, g.active.trans h.active, fun p i f hs hf => ?_⟩
  obtain ⟨hs', target, n, hf'⟩ := h.fading p i f hs hf
  obtain ⟨hs'', target', n', hf''⟩ := g.fading p i _ hs' hf'
  exact ⟨hs'', target'.trans target, n', hf''⟩

/-- The chain states of a channel stand. -/
def SameChains (c : Chan) (s t : State) : Prop :=
  t.equaliser.active[c] = s.equaliser.active[c] ∧ t.equaliser.target[c] = s.equaliser.target[c]

theorem GoesOn.of_same (way : course t c = course s c) (chains : SameChains c s t) : GoesOn c s t := by
  have switch := course_switch way
  refine ⟨by rw [switch], chains.1, fun p i f hs hf => ⟨switch.trans hs, chains.2, f.next, ?_⟩⟩
  have slot := congrArg Prod.snd way
  unfold course at slot
  rw [switch, hs] at slot
  exact slot.trans hf

/-- Every fade in a slot of `t` stood there in `s`, but for its next target, or has just started. -/
def OldOrFresh (s t : State) : Prop := ∀ (j : FadeSlot) (h : Fade), t.sched.slots[j] = some h →
  h.k = 0 ∨ ∃ n, s.sched.slots[j] = some { h with next := n }

theorem OldOrFresh.refl (s : State) : OldOrFresh s s := fun _ h hj => .inr ⟨h.next, hj⟩

theorem OldOrFresh.trans (h : OldOrFresh s t) (g : OldOrFresh t u) : OldOrFresh s u := by
  intro j x hx
  rcases g j x hx with k | ⟨n, hn⟩
  · exact .inl k
  · rcases h j _ hn with k | ⟨n', hn'⟩
    · exact .inl k
    · exact .inr ⟨n', hn'⟩

theorem OldOrFresh.of_slots (e : t.sched.slots = s.sched.slots) : OldOrFresh s t :=
  fun _ h hj => .inr ⟨h.next, by rw [← e]; exact hj⟩

theorem oldOrFresh_set {i : FadeSlot} {x : Option Fade} (e : t.sched.slots = s.sched.slots.set i x)
    (hx : ∀ h ∈ x, h.k = 0 ∨ ∃ n, s.sched.slots[i] = some { h with next := n }) : OldOrFresh s t := by
  intro j h hj
  rw [e, get_set] at hj
  split at hj
  · rename_i ji
    subst ji
    exact hx h hj
  · exact .inr ⟨h.next, hj⟩

theorem SchedAct.oldOrFresh (a : SchedAct s t) : OldOrFresh s t := by
  cases a with
  | start c q i queue rest new free running left =>
    refine oldOrFresh_set (start_moved c _ q i queue).slots fun h hh => .inl ?_
    cases hh
    rfl
  | switch c q rest => exact .of_slots (switch_moved c _ q).slots
  | stay c rest => exact .of_slots (stay_moved c _).slots
  | join c p q steady new running => exact .of_slots rfl
  | wait c p q r waits new => exact .of_slots rfl
  | redirect i f n holds new =>
    refine oldOrFresh_set (i := i) (x := some { f with next := n }) rfl fun h hh => .inr ⟨f.next, ?_⟩
    cases hh
    exact holds
  | carry i f holds =>
    exact oldOrFresh_set (carry_moved f i).slots fun h hh => by cases hh

theorem SchedActs.oldOrFresh (a : SchedActs s t) : OldOrFresh s t := by
  induction a with
  | refl => exact .refl s
  | tail _ b ih => exact ih.trans b.oldOrFresh

/-! ### A page request -/

theorem sameChains_of_equaliser (e : t.equaliser = s.equaliser) (d : Chan) : SameChains d s t := by
  unfold SameChains
  rw [e]
  exact ⟨rfl, rfl⟩

theorem startFade_same {d : Chan} (hd : d ≠ c) (p q : Page) (i : FadeSlot) : SameChains d s (startFade c p q i s) := by
  refine ⟨by rw [startFade_active], ?_⟩
  rw [startFade_chains, get_set, if_neg hd]

theorem requestEnabled_same {d : Chan} (hd : d ≠ c) (r : Page) : SameChains d s (requestEnabled c r s) := by
  unfold requestEnabled
  cases s.sched.switch[c] with
  | steady p =>
    dsimp only
    split
    · exact ⟨rfl, rfl⟩
    · cases freeSlot s with
      | some i => exact startFade_same hd p r i
      | none => exact ⟨rfl, rfl⟩
  | queued p q =>
    dsimp only
    split <;> exact ⟨rfl, rfl⟩
  | fading p i =>
    dsimp only
    cases s.sched.slots[i] <;> exact ⟨rfl, rfl⟩

theorem requestDisabled_same {d : Chan} (hd : d ≠ c) (r : Page) : SameChains d s (requestDisabled c r s) := by
  unfold requestDisabled
  cases s.sched.switch[c] with
  | steady p =>
    dsimp only
    split
    · exact ⟨rfl, rfl⟩
    · exact instantSwitch_chains_others hd
  | queued p q => exact ⟨rfl, rfl⟩
  | fading p i => exact ⟨rfl, rfl⟩

theorem goesOn_setSwitch {w : Switch} (page : activePage w = activePage s.sched.switch[c])
    (rest : (s.sched.switch[c]).slot = none) (switch : t.sched.switch[c] = w)
    (active : t.equaliser.active[c] = s.equaliser.active[c]) : GoesOn c s t :=
  ⟨by rw [switch, page], active, fun p i f hs _ => by rw [hs] at rest; cases rest⟩

/-- A page request to an enabled channel changes what it heads for, not what it runs (R132). -/
theorem requestEnabled_goesOn (c : Chan) (r : Page) (s : State) : GoesOn c s (requestEnabled c r s) := by
  unfold requestEnabled
  cases hs : s.sched.switch[c] with
  | steady p =>
    dsimp only
    split
    · exact .refl c s
    · cases freeSlot s with
      | some i =>
        exact goesOn_setSwitch (w := .fading p i) (by rw [hs]; rfl) (by rw [hs]; rfl)
          (by rw [(startFade_moved c p r i).at, if_pos rfl]) (by rw [startFade_active])
      | none =>
        refine goesOn_setSwitch (w := .queued p r) (by rw [hs]; rfl) (by rw [hs]; rfl) ?_ rfl
        rw [(join_moved c p r).at, if_pos rfl]
  | queued p q =>
    dsimp only
    split
    · refine goesOn_setSwitch (w := .steady p) (by rw [hs]; rfl) (by rw [hs]; rfl) ?_ rfl
      rw [(stay_moved c p).at, if_pos rfl]
    · refine goesOn_setSwitch (w := .queued p r) (by rw [hs]; rfl) (by rw [hs]; rfl) ?_ rfl
      rw [(wait_moved c p r).at, if_pos rfl]
  | fading p i =>
    dsimp only
    cases hf : s.sched.slots[i] with
    | none => exact .refl c s
    | some f =>
      refine ⟨rfl, rfl, fun p' j g hs' hg => ?_⟩
      rw [hs] at hs'
      cases hs'
      rw [hf] at hg
      cases hg
      refine ⟨hs, rfl, if r = f.target then none else some r, ?_⟩
      show (s.sched.slots.set i _)[i] = _
      rw [get_set, if_pos rfl]

/-- A page request leaves every running channel on its page and in its fade. -/
theorem SchedLaws.pageRequest_goesOn (h : SchedLaws s) (c : Chan) (r : Page) {d : Chan} (on : s.channels[d].out ≠ none) :
    GoesOn d s (pageRequest c r s) := by
  by_cases e : d = c
  · subst e
    have : enabled s d = true := Option.isSome_iff_ne_none.mpr on
    unfold pageRequest
    rw [if_pos this]
    exact requestEnabled_goesOn d r s
  · refine .of_same (h.pageRequest_others c r d e) ?_
    unfold pageRequest
    split
    · exact requestEnabled_same e r
    · exact requestDisabled_same e r

/-- A grant starts the head's fade from its page, and leaves every other channel (R134). -/
theorem SchedLaws.grantHead_goesOn (h : SchedLaws s) {i : FadeSlot} (free : s.sched.slots[i] = none) (d : Chan) :
    GoesOn d s (grantHead i s) := by
  have granted := h.grantHead_granted i
  by_cases head : s.sched.queue.head? = some d
  · obtain ⟨rest, hq⟩ := List.head?_eq_some_iff.mp head
    obtain ⟨p, q, hd⟩ := h.head_waits hq
    obtain ⟨starts, -⟩ := granted.head d rest p q hq hd
    exact goesOn_setSwitch (w := .fading p i) (by rw [hd]; rfl) (by rw [hd]; rfl) starts.switch (by rw [granted.active])
  · obtain ⟨switch, target⟩ := granted.voicing d head
    refine .of_same ?_ ⟨by rw [granted.active], target⟩
    unfold course
    rw [switch]
    congr 1
    cases hs : (s.sched.switch[d]).slot with
    | none => rfl
    | some j =>
      have ne : j ≠ i := fun e => h.slot_ne free d (e ▸ hs)
      exact granted.others j ne

/-- Disabling one channel leaves the others running (R139). -/
theorem SchedLaws.schedDisable_goesOn (h : SchedLaws s) (c : Chan) {d : Chan} (hd : d ≠ c) : GoesOn d s (schedDisable c s) := by
  have lost : GoesOn d s (schedLoseChannel s c) := .of_same (h.lose_others c d hd) (h.lose_chains hd)
  rw [h.schedDisable_eq]
  cases slot : (s.sched.switch[c]).slot with
  | none => exact lost
  | some i =>
    exact lost.trans ((SchedActs.laws (h.schedLoseChannel_acts c) h).grantHead_goesOn (h.lose_slot slot) d)

/-- A fade carried over leaves the other channels (R136). -/
theorem SchedLaws.carried_goesOn (h : SchedLaws s) {i : FadeSlot} {f : Fade} (hf : s.sched.slots[i] = some f) {d : Chan}
    (hd : d ≠ f.channel) : GoesOn d s (carried f i s) :=
  .of_same (((h.carry_others hf).trans (requeue_others f)) d hd)
    ⟨by rw [carried_active, if_neg hd], by rw [carried_target, if_neg hd]⟩

end Sys2Proof.Machine
end

section
/-! What the events of the Gain Planner and the channel loads leave of the running channels (R24 to R27, R92, R106). -/

namespace Sys2Proof.Machine

variable {s t u v : State} {P : Chan → Prop}

/-- From `s` to `t` every channel that `P` picks goes on, and no fade but one that stood in its slot has made a step. -/
structure KeepsRunning (P : Chan → Prop) (s t : State) : Prop where
  running : ∀ c : Chan, P c → GoesOn c s t
  slots : OldOrFresh s t

theorem KeepsRunning.refl (P : Chan → Prop) (s : State) : KeepsRunning P s s := ⟨fun c _ => .refl c s, .refl s⟩

theorem KeepsRunning.trans (h : KeepsRunning P s t) (g : KeepsRunning P t u) : KeepsRunning P s u :=
  ⟨fun c hc => (h.running c hc).trans (g.running c hc), h.slots.trans g.slots⟩

theorem KeepsRunning.of_eq (hs : t.sched.switch = s.sched.switch) (hl : t.sched.slots = s.sched.slots)
    (he : t.equaliser.active = s.equaliser.active) (ht : t.equaliser.target = s.equaliser.target) : KeepsRunning P s t :=
  ⟨fun c _ => .of_same (course_of_same hs hl c) ⟨by rw [he], by rw [ht]⟩, .of_slots hl⟩

theorem SamePages.keepsRunning (h : SamePages s t) : KeepsRunning P s t :=
  .of_eq (by rw [h.sched]) (by rw [h.sched]) (by rw [h.equaliser]) (by rw [h.equaliser])

theorem keepsRunning_resettleZones (a b : Bool) : KeepsRunning P s (resettleZones a b s) :=
  .of_eq (sameSched_resettleZones a b).switch (sameSched_resettleZones a b).slots (by rw [equaliser_resettleZones])
    (by rw [equaliser_resettleZones])

theorem SchedLaws.keepsRunning_pageRequest (h : SchedLaws s) (on : ∀ d, P d → s.channels[d].out ≠ none) (c : Chan)
    (r : Page) : KeepsRunning P s (pageRequest c r s) :=
  ⟨fun d hd => h.pageRequest_goesOn c r (on d hd), (h.pageRequest_acts c r).oldOrFresh⟩

theorem SchedLaws.keepsRunning_requests (a b : Bool) (l : List Chan) : ∀ {s : State}, SchedLaws s →
    (∀ d, P d → s.channels[d].out ≠ none) → KeepsRunning P s (l.foldl (requestIfIn a b) s) := by
  induction l with
  | nil => exact fun _ _ => .refl P _
  | cons c l ih =>
    intro s h on
    have first : KeepsRunning P s (requestIfIn a b s c) := by
      rw [requestIfIn_eq]
      split
      · exact h.keepsRunning_pageRequest on c _
      · exact .refl P s
    have only := onlyPages_requestIfIn a b s c
    exact first.trans (ih (SchedActs.laws (requestIfIn_acts h a b c) h) fun d hd => by rw [only.channels]; exact on d hd)

theorem reviewPages_keepsRunning (h : SchedInv s) (on : ∀ d, P d → s.channels[d].out ≠ none) (a b : Bool) :
    KeepsRunning P s (reviewPages a b s) := by
  have hz : SchedInv { s with gain.zones := reviewedZones a b s.gain.zones } :=
    h.of_same ⟨rfl, rfl, rfl, fun _ => rfl, fun z => .inl (reviewedZones_exponent a b s.gain.zones z)⟩
  unfold reviewPages
  dsimp only
  split
  · unfold handRequests
    have stored : KeepsRunning P s { s with gain.zones := reviewedZones a b s.gain.zones } := .of_eq rfl rfl rfl rfl
    exact stored.trans ((hz.sound.laws.keepsRunning_requests _ _ (List.finRange 24) on).trans (keepsRunning_resettleZones _ _))
  · exact .of_eq rfl rfl rfl rfl

theorem requestDisabled_keepsRunning (h : SchedLaws s) {c : Chan} (hc : ¬ P c) (r : Page) :
    KeepsRunning P s (requestDisabled c r s) := by
  refine ⟨fun d hd => ?_, (h.requestDisabled_acts c r).oldOrFresh⟩
  have ne : d ≠ c := fun e => hc (e ▸ hd)
  exact .of_same (requestDisabled_others c r d ne) (requestDisabled_same ne r)

theorem requestEnabled_keepsRunning (h : SchedLaws s) {c : Chan} (hc : ¬ P c) (on : s.channels[c].out ≠ none) (r : Page) :
    KeepsRunning P s (requestEnabled c r s) := by
  refine ⟨fun d hd => ?_, (requestEnabled_acts on r).oldOrFresh⟩
  have ne : d ≠ c := fun e => hc (e ▸ hd)
  exact .of_same (h.requestEnabled_others c r d ne) (requestEnabled_same ne r)

theorem storeRecord_keepsRunning (c : Chan) (new : ChannelRecord) : KeepsRunning P s (storeRecord c new s) :=
  .of_eq (by rw [storeRecord_sched]) (by rw [storeRecord_sched]) (by rw [storeRecord_equaliser])
    (by rw [storeRecord_equaliser])

theorem silence_keepsRunning {c : Chan} (hc : ¬ P c) : KeepsRunning P s (emptyDelay c (zeroActive c s)) := by
  refine ⟨fun d hd => .of_same rfl ⟨?_, rfl⟩, .of_slots rfl⟩
  have ne : d ≠ c := fun e => hc (e ▸ hd)
  rw [show (emptyDelay c (zeroActive c s)).equaliser = (zeroActive c s).equaliser from rfl, zeroActive, setActive_at,
    if_neg ne]

/-- A load that disables its channel leaves the others running. -/
theorem disablePages_keepsRunning (h : SchedInv s) {c : Chan} (hc : ¬ P c) (new : ChannelRecord) :
    KeepsRunning P s (disablePages s c new) := by
  have d := h.disabling c new
  have acts := d.laws.schedDisable_acts c d.resting
  have first : KeepsRunning P s (schedDisable c (storeRecord c new s)) :=
    (storeRecord_keepsRunning c new).trans
      ⟨fun e he => d.laws.schedDisable_goesOn c fun x => hc (x ▸ he), SchedActs.oldOrFresh acts⟩
  unfold disablePages
  split
  · exact first.trans (requestDisabled_keepsRunning (SchedActs.laws acts d.laws) hc _)
  · exact first

/-- A load that enables its channel leaves the others running. -/
theorem enablePages_keepsRunning (h : SchedInv s) {c : Chan} (hc : ¬ P c) {new : ChannelRecord} (on : new.out ≠ none) :
    KeepsRunning P s (askZonePage requestEnabled c (enablePages s c new)) := by
  have laws := h.sound.laws.storeRecord c new
  have enables {v : State} (hv : v.channels = (storeRecord c new s).channels) : v.channels[c].out ≠ none := by
    rw [hv, storeRecord_at, if_pos rfl]; exact on
  unfold enablePages
  refine (storeRecord_keepsRunning c new).trans ?_
  split
  · have acts := laws.requestDisabled_acts c ((storeRecord c new s).gain.zones.get (storeRecord c new s).channels[c].zone).requestedPage
    exact (requestDisabled_keepsRunning laws hc _).trans (requestEnabled_keepsRunning (SchedActs.laws acts laws) hc
      (enables (SchedActs.onlyPages acts).channels) _)
  · exact requestEnabled_keepsRunning laws hc (enables rfl) _

/-- Disabling, enabling or moving a channel leaves every channel that is enabled before and after running. -/
theorem loadRecord_keepsRunning (h : SchedInv s) (c : Chan) (new : ChannelRecord)
    (on : ∀ d, P d → s.channels[d].out ≠ none) (after : ∀ d, P d → (loadRecord c new s).channels[d].out ≠ none) :
    KeepsRunning P s (loadRecord c new s) := by
  have own : (loadRecord c new s).channels[c] = new := by rw [loadRecord_channels, get_set, if_pos rfl]
  by_cases out : s.channels[c].out.isSome = new.out.isSome
  · by_cases zone : s.channels[c].zone = new.zone
    · rw [loadRecord_plain c new out zone]
      exact storeRecord_keepsRunning c new
    · rw [loadRecord_moves out zone]
      refine (storeRecord_keepsRunning c new).trans (KeepsRunning.trans ?_ (keepsRunning_resettleZones _ _))
      refine (h.sound.laws.storeRecord c new).keepsRunning_pageRequest (fun d hd => ?_) c _
      rw [storeRecord_at]
      split
      · rename_i e
        subst e
        exact own ▸ after d hd
      · exact on d hd
  · cases old : s.channels[c].out.isSome with
    | true =>
      have off : new.out.isSome = false := by rw [old] at out; simpa using out
      have hc : ¬ P c := fun hp => after c hp (by rw [own]; simpa using off)
      rw [loadRecord_disables old off]
      exact ((disablePages_keepsRunning h hc new).trans (keepsRunning_resettleZones _ _)).trans (silence_keepsRunning hc)
    | false =>
      have new_on : new.out.isSome = true := by rw [old] at out; exact Bool.ne_false_iff.mp (Ne.symm out)
      have hc : ¬ P c := fun hp => on c hp (by simpa using old)
      rw [loadRecord_enables old new_on]
      exact (enablePages_keepsRunning h hc (Option.isSome_iff_ne_none.mp new_on)).trans (keepsRunning_resettleZones _ _)

theorem samePages_atEffectiveSpeed (r : SpeedTracker) : SamePages s (recomputeSpeed allChannels
    { setSpeed r s with gain.zones := { a := evalSdv r.effective s.gain.zones.a, b := evalSdv r.effective s.gain.zones.b } }) := by
  refine SamePages.trans (t := { setSpeed r s with gain.zones :=
    { a := evalSdv r.effective s.gain.zones.a, b := evalSdv r.effective s.gain.zones.b } })
    ⟨rfl, rfl, rfl, fun _ => rfl, fun _ => rfl, fun z => ?_, fun z => ?_⟩ (samePages_recomputeSpeed _)
  · cases z <;> rfl
  · cases z <;> exact .inl rfl

theorem speedEvent_keepsRunning (h : SchedInv s) (on : ∀ d, P d → s.channels[d].out ≠ none) (r : SpeedTracker) :
    KeepsRunning P s (speedEvent r s) := by
  unfold speedEvent handEffective
  split
  · have same := samePages_atEffectiveSpeed (s := s) r
    exact same.keepsRunning.trans (reviewPages_keepsRunning (h.of_same same.sameSched)
      (fun d hd => by rw [same.out]; exact on d hd) true true)
  · exact .of_eq rfl rfl rfl rfl

theorem PageAct.keepsRunning (a : PageAct s t) (h : SchedInv s) (on : ∀ d, P d → s.channels[d].out ≠ none)
    (after : ∀ d, P d → t.channels[d].out ≠ none) : KeepsRunning P s t := by
  cases a with
  | still same => exact same.keepsRunning
  | review z v same =>
    exact same.keepsRunning.trans (reviewPages_keepsRunning (h.of_same same.sameSched)
      (fun d hd => by rw [same.out]; exact on d hd) _ _)
  | event r => exact speedEvent_keepsRunning h on r
  | load c r => exact loadRecord_keepsRunning h c r on after
  | coeffs i k unused => exact .of_eq rfl rfl rfl rfl
  | program p c prog short valid unused => exact .of_eq rfl rfl rfl rfl

end Sys2Proof.Machine
end

section
/-! The crossfade steps and completions of a frame, channel by channel (R122, R135 to R137). -/

namespace Sys2Proof.Machine

variable {s t u v : State} {i : FadeSlot} {f : Fade}

/-! ### One completion -/

theorem carried_activePage (f : Fade) (i : FadeSlot) : activePage (carried f i s).sched.switch[f.channel] = f.target := by
  unfold carried
  cases hn : f.next with
  | none => rw [requeue_none hn, carryOver_switch]; rfl
  | some r => rw [(requeue_moved hn).at, if_pos rfl]; rfl

/-- The channel whose fade completes is on its target page, with its target chain. -/
structure Arrived (f : Fade) (s t : State) : Prop where
  page : activePage t.sched.switch[f.channel] = f.target
  active : t.equaliser.active[f.channel] = (s.equaliser.target[f.channel]).getD s.equaliser.active[f.channel]

theorem Arrived.goesOn (h : Arrived f s t) (g : GoesOn f.channel t u) : Arrived f s u :=
  ⟨g.page.trans h.page, g.active.trans h.active⟩

theorem completeFade_arrived (h : SchedSound s) (hf : s.sched.slots[i] = some f) : Arrived f s (completeFade i s) ∧
    KeepsRunning (fun d => d ≠ f.channel) s (completeFade i s) := by
  have acts := h.laws.carried_acts hf h.resting
  have grant := (SchedActs.laws acts h.laws).grantHead_goesOn (carried_slot f i)
  rw [completeFade_eq hf]
  refine ⟨⟨(grant _).page.trans (carried_activePage f i), ?_⟩, fun d hd => (h.laws.carried_goesOn hf hd).trans (grant d), ?_⟩
  · rw [(grant _).active, carried_active, if_pos rfl]
  · rw [← completeFade_eq hf]
    exact SchedActs.oldOrFresh (h.completeFade_acts i)

theorem reachedEnd_iff : reachedEnd s i = true ↔ ∃ f, s.sched.slots[i] = some f ∧ f.length ≤ f.k := by
  unfold reachedEnd
  cases s.sched.slots[i] <;> simp

/-- A channel holds one slot at most. -/
theorem SchedLaws.slot_unique (h : SchedLaws s) {j : FadeSlot} {g : Fade} (hf : s.sched.slots[i] = some f)
    (hg : s.sched.slots[j] = some g) (e : f.channel = g.channel) : i = j := by
  have one := h.occupied i f hf
  have two := h.occupied j g hg
  rw [switch_congr (s := s) e, two] at one
  injection one with _ at_
  exact at_.symm

/-! ### The completions of a frame -/

theorem KeepsRunning.mono {P Q : Chan → Prop} (h : KeepsRunning P s t) (hpq : ∀ c, Q c → P c) : KeepsRunning Q s t :=
  ⟨fun c hc => h.running c (hpq c hc), h.slots⟩

theorem completeIfReached_slot (h : SchedSound s) {j : FadeSlot} (hj : j ≠ i) :
    (completeIfReached s i).sched.slots[j] = s.sched.slots[j] := by
  unfold completeIfReached
  split
  · exact h.completeFade_slot hj
  · rfl

theorem completeIfReached_sound (h : SchedSound s) (i : FadeSlot) : SchedSound (completeIfReached s i) := by
  unfold completeIfReached
  split
  · exact h.completeFade i
  · exact h

theorem completeIfReached_keeps (h : SchedSound s) (i : FadeSlot) :
    KeepsRunning (fun d => ¬ Arriving [i] s d) s (completeIfReached s i) := by
  unfold completeIfReached
  split
  · rename_i reached
    obtain ⟨f, hf, -⟩ := reachedEnd_iff.mp reached
    exact (completeFade_arrived h hf).2.mono fun d hd e => hd ⟨i, List.mem_cons_self, reached, f, hf, e.symm⟩
  · exact .refl _ s

theorem completions_running (l : List FadeSlot) (hl : l.Nodup) : ∀ {s : State}, SchedSound s →
    KeepsRunning (fun d => ¬ Arriving l s d) s (l.foldl completeIfReached s) ∧
    ∀ i ∈ l, ∀ f, s.sched.slots[i] = some f → f.length ≤ f.k → Arrived f s (l.foldl completeIfReached s) := by
  induction l with
  | nil => exact fun _ => ⟨.refl _ _, fun i hi => by cases hi⟩
  | cons i l ih =>
    intro s h
    obtain ⟨hil, hl⟩ := List.nodup_cons.mp hl
    have sound := completeIfReached_sound h i
    obtain ⟨runs, arrives⟩ := ih hl sound
    have first := completeIfReached_keeps h i
    have slots (j : FadeSlot) (hj : j ∈ l) : (completeIfReached s i).sched.slots[j] = s.sched.slots[j] :=
      completeIfReached_slot h fun e => hil (e ▸ hj)
    have later (d : Chan) (hd : Arriving l (completeIfReached s i) d) : Arriving l s d := by
      obtain ⟨j, hj, reached, f, hf, e⟩ := hd
      unfold reachedEnd at reached
      rw [slots j hj] at hf reached
      exact ⟨j, hj, reached, f, hf, e⟩
    rw [List.foldl_cons]
    have here (d : Chan) (hd : Arriving [i] s d) : Arriving (i :: l) s d := by
      obtain ⟨j, hj, rest⟩ := hd
      exact ⟨j, List.mem_cons.mpr (.inl (List.mem_singleton.mp hj)), rest⟩
    have rest (d : Chan) (hd : Arriving l (completeIfReached s i) d) : Arriving (i :: l) s d := by
      obtain ⟨j, hj, rest⟩ := later d hd
      exact ⟨j, List.mem_cons_of_mem _ hj, rest⟩
    refine ⟨(first.mono fun d hd a => hd (here d a)).trans (runs.mono fun d hd a => hd (rest d a)),
      fun j hj f hf end_ => ?_⟩
    · by_cases hji : j = i
      · subst hji
        have reached := reachedEnd_iff.mpr ⟨f, hf, end_⟩
        have now : Arrived f s (completeIfReached s j) := by
          unfold completeIfReached
          rw [if_pos reached]
          exact (completeFade_arrived h hf).1
        refine now.goesOn (runs.running f.channel fun a => ?_)
        obtain ⟨k, hk, -, g, hg, e⟩ := later _ a
        exact hil (h.laws.slot_unique hf hg e.symm ▸ hk)
      · have hjl : j ∈ l := (List.mem_cons.mp hj).resolve_left hji
        have there := arrives j hjl f (by rw [slots j hjl]; exact hf) end_
        have other : ¬ Arriving [i] s f.channel := by
          rintro ⟨k, hk, -, g, hg, e⟩
          obtain rfl : k = i := List.mem_singleton.mp hk
          exact hji (h.laws.slot_unique hf hg e.symm)
        have on := first.running _ other
        obtain ⟨-, target, -⟩ := on.fading f.old j f (h.laws.occupied j f hf) hf
        exact ⟨there.page, by rw [there.active, target, on.active]⟩

/-! ### The act -/

/-- The fade in slot `j` makes its step in this frame: it stood there as the frame arrived, and its channel runs (R134,
R135). -/
def Steps (view : View) (step : Stepping) (j : FadeSlot) (f : Fade) : Prop :=
  step[j] = some f.channel ∧ view[f.channel].out ≠ none

theorem stepSlots_at (view : View) (step : Stepping) (j : FadeSlot) :
    (∀ f, s.sched.slots[j] = some f → Steps view step j f →
      (stepSlots view step s).sched.slots[j] = some { f with k := f.k + 1 }) ∧
    ((∀ f, s.sched.slots[j] = some f → ¬ Steps view step j f) →
      (stepSlots view step s).sched.slots[j] = s.sched.slots[j]) := by
  have e : (stepSlots view step s).sched.slots[j] = match stepsIn s step j with
      | some f => if view[f.channel].out.isSome then some { f with k := f.k + 1 } else some f
      | none => s.sched.slots[j] := Vector.getElem_ofFn ..
  rw [e]
  unfold stepsIn Steps
  cases hf : s.sched.slots[j] with
  | none => exact ⟨fun f h => (by cases h), fun _ => rfl⟩
  | some f =>
    by_cases here : step[j] = some f.channel
    · rw [Option.filter_some, here, if_pos (beq_self_eq_true _)]
      dsimp only
      cases hv : view[f.channel].out with
      | none =>
        refine ⟨fun g hg st => ?_, fun _ => rfl⟩
        cases hg
        exact absurd hv st.2
      | some k =>
        refine ⟨fun g hg _ => ?_, fun none => ?_⟩
        · cases hg; rfl
        · exact absurd ⟨rfl, by rw [hv]; simp⟩ (none f rfl)
    · rw [Option.filter_some, if_neg (by simpa using here)]
      exact ⟨fun g hg st => by cases hg; exact absurd st.1 here, fun _ => rfl⟩

/-- What the fades' act makes of every running channel and of the slots. -/
structure FadesTaken (view : View) (step : Stepping) (s t : State) : Prop where
  still : ∀ c : Chan, (∀ j f, s.sched.slots[j] = some f → f.channel = c → ¬ Steps view step j f) → GoesOn c s t
  steps : ∀ j f, s.sched.slots[j] = some f → Steps view step j f → f.k + 1 < f.length →
    t.sched.switch[f.channel] = s.sched.switch[f.channel] ∧ SameChains f.channel s t ∧
      ∃ n, t.sched.slots[j] = some { f with k := f.k + 1, next := n }
  arrives : ∀ j f, s.sched.slots[j] = some f → Steps view step j f → f.k + 1 = f.length → Arrived f s t
  slots : ∀ j h, t.sched.slots[j] = some h → h.k = 0 ∨ ∃ g, s.sched.slots[j] = some g ∧
    (Steps view step j g ∧ h = { g with k := g.k + 1, next := h.next } ∨
      ¬ Steps view step j g ∧ h = { g with next := h.next })

theorem stepSlots_running (view : View) (step : Stepping) {c : Chan}
    (h : ∀ j f, s.sched.slots[j] = some f → f.channel = c → ¬ Steps view step j f) (laws : SchedLaws s) :
    GoesOn c s (stepSlots view step s) := by
  refine ⟨rfl, rfl, fun p j f hs hf => ⟨hs, rfl, f.next, ?_⟩⟩
  obtain ⟨g, hg, own, -⟩ := laws.fade_of hs
  rw [hg] at hf
  cases hf
  rw [(stepSlots_at view step j).2 fun y hy => h j y hy (by rw [hg] at hy; cases hy; exact own), hg]

/-- The fades' act, between the stepped slots and the flags. -/
theorem fadesAct_eq (view : View) (step : Stepping) (s : State) : ∃ a b, fadesAct view step s =
    resettleZones a b ((List.finRange 8).foldl completeIfReached (stepSlots view step s)) := ⟨_, _, rfl⟩

theorem stepSlots_back (view : View) (step : Stepping) {j : FadeSlot} {h : Fade}
    (hj : (stepSlots view step s).sched.slots[j] = some h) : ∃ g, s.sched.slots[j] = some g ∧
      (Steps view step j g ∧ h = { g with k := g.k + 1 } ∨ ¬ Steps view step j g ∧ h = g) := by
  obtain ⟨steps, still⟩ := stepSlots_at (s := s) view step j
  cases hg : s.sched.slots[j] with
  | none =>
    rw [still (by rw [hg]; rintro _ ⟨⟩), hg] at hj
    cases hj
  | some g =>
    by_cases st : Steps view step j g
    · rw [steps g hg st] at hj
      exact ⟨g, rfl, .inl ⟨st, (Option.some.inj hj).symm⟩⟩
    · rw [still (by rw [hg]; rintro _ ⟨⟩; exact st), hg] at hj
      exact ⟨g, rfl, .inr ⟨st, (Option.some.inj hj).symm⟩⟩

theorem fadesTaken_fadesAct (h : SchedInv s) (view : View) (step : Stepping) :
    FadesTaken view step s (fadesAct view step s) := by
  obtain ⟨a, b, e⟩ := fadesAct_eq view step s
  have sound := h.sound.stepSlots view step
  have unreached (j : FadeSlot) (f : Fade) (hf : s.sched.slots[j] = some f) : f.k < f.length := (h.progress j f hf).1
  obtain ⟨runs, arrives⟩ := completions_running (List.finRange 8) (List.nodup_finRange 8) sound
  have last (c : Chan) := (keepsRunning_resettleZones (P := fun _ => True)
    (s := (List.finRange 8).foldl completeIfReached (stepSlots view step s)) a b).running c trivial
  rw [← e] at last
  have slots : OldOrFresh (stepSlots view step s) (fadesAct view step s) :=
    runs.slots.trans (e ▸ (keepsRunning_resettleZones (P := fun _ => True) a b).slots)
  have goes (c : Chan) (hc : ¬ Arriving (List.finRange 8) (stepSlots view step s) c) :
      GoesOn c (stepSlots view step s) (fadesAct view step s) := (runs.running c hc).trans (last c)
  have back {x y : Fade} {n : Option Page} (e : { x with next := n } = y) : x = { y with next := x.next } := by rw [← e]
  generalize (List.finRange 8).foldl completeIfReached (stepSlots view step s) = z at arrives last
  refine ⟨fun c hc => (stepSlots_running view step hc h.sound.laws).trans (goes c ?_), fun j f hf st lt => ?_,
    fun j f hf st eq => ?_, fun j x hx => ?_⟩
  · rintro ⟨j, -, reached, f, hf, own⟩
    obtain ⟨f', hf', end_⟩ := reachedEnd_iff.mp reached
    rw [hf] at hf'
    cases hf'
    obtain ⟨g, hg, ⟨st, rfl⟩ | ⟨-, rfl⟩⟩ := stepSlots_back view step hf
    · exact hc j g hg own st
    · exact absurd (unreached j _ hg) (by omega)
  · have at_ := (stepSlots_at view step j).1 f hf st
    have on := goes f.channel (by
      rintro ⟨i, -, reached, g, hg, own⟩
      obtain rfl := sound.laws.slot_unique hg at_ own
      rw [at_] at hg
      cases hg
      obtain ⟨g, hg, end_⟩ := reachedEnd_iff.mp reached
      rw [at_] at hg
      cases hg
      exact absurd lt (by dsimp only at end_; omega))
    have switch := h.sound.laws.occupied j f hf
    obtain ⟨switch', target, n, slot⟩ := on.fading f.old j _ switch at_
    exact ⟨switch'.trans switch.symm, ⟨on.active, target⟩, n, slot⟩
  · have at_ := (stepSlots_at view step j).1 f hf st
    have there := (arrives j (List.mem_finRange j) _ at_ (by dsimp only; omega)).goesOn (last _)
    exact ⟨there.page, there.active⟩
  · rcases slots j x hx with k | ⟨n, hn⟩
    · exact .inl k
    · obtain ⟨g, hg, ⟨st, e⟩ | ⟨st, e⟩⟩ := stepSlots_back view step hn
      · exact .inr ⟨g, hg, .inl ⟨st, back e⟩⟩
      · exact .inr ⟨g, hg, .inr ⟨st, back e⟩⟩

end Sys2Proof.Machine
end

section
/-! The pages through a frame: running channels go on, but for the step of their fades, which the frame takes once (R124,
R134 to R137). -/

namespace Sys2Proof.Machine

variable {s t u v : State} {x : FrameCtx} {r : FrameRun} {m : List FrameStep} {P : Chan → Prop}

/-! ### The other acts -/

theorem step_sched (h : SchedInv r.state) {c : FrameStep} (hc : c ≠ .act .control) : SchedInv (runStep x r c).state := by
  cases c with
  | audio => exact h.of_same (sameSched_audioAct x r)
  | act a =>
    have kept (ha : a ≠ .control) : SchedInv (runAct x r a).state := by
      cases a with
      | control => exact absurd rfl ha
      | request => exact (keptSched.requestAct _ ⟨h, trivial⟩).1
      | meters => exact (keptSched.meters _ _ _ ⟨h, trivial⟩).1
      | fades => exact (keptSched.fades _ _ _ ⟨h, trivial⟩).1
      | count l => exact (keptSched.countLane _ _ ⟨h, trivial⟩).1
      | staleness => exact (keptSched.countStaleness _ ⟨h, trivial⟩).1
      | duckLine => exact (keptSched.countDuck _ ⟨h, trivial⟩).1
    exact kept fun e => hc (by rw [e])

theorem steps_sched (hc : .act .control ∉ m) : ∀ r : FrameRun, SchedInv r.state →
    SchedInv (m.foldl (runStep x) r).state := by
  induction m with
  | nil => exact fun _ h => h
  | cons c m ih =>
    obtain ⟨ne, hc'⟩ := not_or.mp fun h => hc (List.mem_cons.mpr h)
    exact fun r h => ih hc' _ (step_sched h (Ne.symm ne))

/-- The acts that touch neither pages nor the speed. -/
theorem step_samePages {c : FrameAct} (h : c = .request ∨ c = .meters ∨ (∃ l, c = .count l) ∨ c = .duckLine) (r : FrameRun) :
    SamePages r.state (runStep x r (.act c)).state := by
  rcases h with rfl | rfl | ⟨l, rfl⟩ | rfl
  · obtain ⟨o, e⟩ := requestAct_parts r.state
    exact (show (runStep x r (.act .request)).state = _ from e) ▸ .of_eq rfl rfl rfl rfl rfl
  · obtain ⟨o, k, e⟩ := metersAct_parts x.view r.runs r.state
    exact (show (runStep x r (.act .meters)).state = _ from e) ▸ .of_eq rfl rfl rfl rfl rfl
  · obtain ⟨y, cur, e, -⟩ := countLane_parts l r.state
    exact (show (runStep x r (.act (.count l))).state = _ from e) ▸ .of_eq rfl rfl rfl rfl rfl
  · obtain ⟨d, y, k, e⟩ := countDuck_parts r.state
    exact (show (runStep x r (.act .duckLine)).state = _ from e) ▸ .of_eq rfl rfl rfl rfl rfl

theorem countStaleness_keepsRunning (h : SchedInv s) (on : ∀ d, P d → s.channels[d].out ≠ none) :
    KeepsRunning P s (countStaleness s) := by
  unfold countStaleness
  split
  · split
    · unfold expiry
      exact (speedEvent_keepsRunning h on _).trans (samePages_notify .speedLost).keepsRunning
    · exact .of_eq rfl rfl rfl rfl
  · exact .refl P s

/-- An act that is neither the control word nor the fades', after the audio or before it. -/
theorem step_keepsRunning (h : SchedInv r.state) (on : ∀ d, P d → r.state.channels[d].out ≠ none) {c : FrameStep}
    (hc : c ≠ .act .control) (hf : c ≠ .act .fades) (ha : c ≠ .audio) : KeepsRunning P r.state (runStep x r c).state := by
  cases c with
  | audio => exact absurd rfl ha
  | act a =>
    cases a with
    | control => exact absurd rfl hc
    | fades => exact absurd rfl hf
    | staleness => exact countStaleness_keepsRunning h on
    | request => exact (step_samePages (.inl rfl) r).keepsRunning
    | meters => exact (step_samePages (.inr (.inl rfl)) r).keepsRunning
    | count l => exact (step_samePages (.inr (.inr (.inl ⟨l, rfl⟩))) r).keepsRunning
    | duckLine => exact (step_samePages (.inr (.inr (.inr rfl))) r).keepsRunning

theorem steps_keepRunning (hc : .act .control ∉ m) (hf : .act .fades ∉ m) (ha : .audio ∉ m) : ∀ r : FrameRun,
    SchedInv r.state → (∀ d, P d → r.state.channels[d].out ≠ none) →
    KeepsRunning P r.state (m.foldl (runStep x) r).state := by
  induction m with
  | nil => exact fun r _ _ => .refl P r.state
  | cons c m ih =>
    obtain ⟨nc, hc'⟩ := not_or.mp fun h => hc (List.mem_cons.mpr h)
    obtain ⟨nf, hf'⟩ := not_or.mp fun h => hf (List.mem_cons.mpr h)
    obtain ⟨na, ha'⟩ := not_or.mp fun h => ha (List.mem_cons.mpr h)
    intro r h on
    have channels := (around_step x r (Ne.symm nc)).channels
    exact (step_keepsRunning h on (Ne.symm nc) (Ne.symm nf) (Ne.symm na)).trans
      (ih hc' hf' ha' _ (step_sched h (Ne.symm nc)) fun d hd => by rw [channels]; exact on d hd)

/-! ### The fades' act within a run of acts -/

/-- From `s` to `t` running channels go on, but for the fades' act, which is taken once. -/
def Passes (P : Chan → Prop) (view : View) (step : Stepping) (s t : State) : Prop :=
  ∃ y z, KeepsRunning P s y ∧ SchedInv y ∧ FadesTaken view step y z ∧ KeepsRunning P z t

theorem KeepsRunning.passes {view : View} {step : Stepping} (h : KeepsRunning P s t) (g : Passes P view step t u) :
    Passes P view step s u := by
  obtain ⟨y, z, before, inv, taken, after⟩ := g
  exact ⟨y, z, h.trans before, inv, taken, after⟩

theorem Passes.keeps {view : View} {step : Stepping} (h : Passes P view step s t) (g : KeepsRunning P t u) :
    Passes P view step s u := by
  obtain ⟨y, z, before, inv, taken, after⟩ := h
  exact ⟨y, z, before, inv, taken, after.trans g⟩

theorem steps_pass (hc : .act .control ∉ m) (hn : m.Nodup) (hf : .act .fades ∈ m) (ha : .audio ∉ m) (r : FrameRun)
    (h : SchedInv r.state) (on : ∀ d, P d → r.state.channels[d].out ≠ none) :
    Passes P x.view x.step r.state (m.foldl (runStep x) r).state := by
  obtain ⟨a, b, e, hfa, hfb⟩ := exists_split hn hf
  subst e
  rw [List.mem_append, not_or] at hc ha
  obtain ⟨hca, hcb⟩ := hc
  obtain ⟨haa, hab⟩ := ha
  have hcb' : .act .control ∉ b := fun h => hcb (List.mem_cons_of_mem _ h)
  have hab' : .audio ∉ b := fun h => hab (List.mem_cons_of_mem _ h)
  have inv := steps_sched (x := x) hca r h
  have channels := (around_steps x a hca r).channels
  have early := steps_keepRunning (x := x) hca hfa haa r h on
  rw [List.foldl_append, List.foldl_cons]
  generalize a.foldl (runStep x) r = y at inv channels early
  have taken : FadesTaken x.view x.step y.state (runStep x y (.act .fades)).state := fadesTaken_fadesAct inv _ _
  have inv' : SchedInv (runStep x y (.act .fades)).state := step_sched inv (by simp)
  have channels' := (around_step x y (b := .act .fades) (by simp)).channels
  exact ⟨_, _, early, inv, taken, steps_keepRunning (x := x) hcb' hfb hab' _ inv' fun d hd => by
    rw [channels', channels]; exact on d hd⟩

/-! ### What the passage says of fades and chains -/

/-- The pages of a frame: from `arrived` to the state the audio finds and on from what it leaves; `t` is the frame's end. -/
structure FramePages (view : View) (arrived found left t : State) : Prop where
  early : KeepsRunning (fun c => arrived.channels[c].out ≠ none ∧ view[c].out ≠ none) arrived found
  sched : left.sched = found.sched
  late : Passes (fun c => arrived.channels[c].out ≠ none ∧ view[c].out ≠ none) view (occupied arrived) left t

theorem occupied_at (s : State) (j : FadeSlot) : (occupied s)[j] = (s.sched.slots[j]).map Fade.channel :=
  Vector.getElem_ofFn ..

variable {arrived found left : State} {view : View}

/-- A fade that stands as the frame arrives, its channel enabled through the frame: where the fades' act finds it, and that
it steps. -/
theorem FramePages.finds (h : FramePages view arrived found left t) (inv : SchedInv arrived) : ∃ y z,
    SchedInv y ∧ FadesTaken view (occupied arrived) y z ∧ OldOrFresh arrived y ∧ OldOrFresh z t ∧
    (∀ c : Chan, arrived.channels[c].out ≠ none → view[c].out ≠ none → GoesOn c left y ∧ GoesOn c z t ∧
      (∀ j g, arrived.sched.slots[j] = some g → g.channel = c → y.sched.switch[c] = .fading g.old j ∧
        ∃ n, y.sched.slots[j] = some { g with next := n } ∧ Steps view (occupied arrived) j { g with next := n }) ∧
      ((arrived.sched.switch[c]).slot = none → ∀ j f, y.sched.slots[j] = some f → f.channel = c →
        ¬ Steps view (occupied arrived) j f)) := by
  obtain ⟨y, z, before, invy, taken, after⟩ := h.late
  have old : OldOrFresh arrived y :=
    h.early.slots.trans ((OldOrFresh.of_slots (by rw [h.sched])).trans before.slots)
  refine ⟨y, z, invy, taken, old, after.slots, fun c on through => ⟨before.running c ⟨on, through⟩,
    after.running c ⟨on, through⟩, fun j g hg own => ?_, fun rest j f _ own st => ?_⟩⟩
  · subst own
    obtain ⟨switch, -, n, slot⟩ := (h.early.running _ ⟨on, through⟩).fading g.old j g (inv.occupied j g hg) hg
    rw [← h.sched] at switch slot
    obtain ⟨switch', -, n', slot'⟩ := (before.running _ ⟨on, through⟩).fading g.old j _ switch slot
    exact ⟨switch', n', slot', by rw [occupied_at, hg]; rfl, through⟩
  · have there := st.1
    rw [occupied_at] at there
    obtain ⟨g, hg, e⟩ := Option.map_eq_some_iff.mp there
    have switch := inv.occupied j g hg
    rw [switch_congr (e.trans own)] at switch
    rw [switch] at rest
    cases rest

theorem out_congr {c d : Chan} (e : c = d) : s.channels[c].out = s.channels[d].out := by subst e; rfl

theorem FramePages.fadesAfter (h : FramePages view arrived found left t) (inv : SchedInv arrived) (end_ : SchedInv t)
    (channels : t.channels = view) : FadesAfter arrived view t := by
  obtain ⟨y, z, invy, taken, old, late, through⟩ := h.finds inv
  have running {j : FadeSlot} {g : Fade} (hg : arrived.sched.slots[j] = some g) : arrived.channels[g.channel].out ≠ none :=
    inv.sound.laws.fading_runs hg inv.sound.resting
  refine ⟨fun j g hg on lt => ?_, fun j g hg on eq => ?_, fun j x hx => ?_⟩
  · obtain ⟨-, goes, stands, -⟩ := through g.channel (running hg) on
    obtain ⟨switch, n, slot, st⟩ := stands j g hg rfl
    obtain ⟨same, -, n', slot'⟩ := taken.steps j _ slot st lt
    obtain ⟨switch', -, n'', slot''⟩ := goes.fading g.old j _ (same.trans switch) slot'
    exact ⟨⟨n'', slot''⟩, switch'⟩
  · obtain ⟨-, goes, stands, -⟩ := through g.channel (running hg) on
    obtain ⟨switch, n, slot, st⟩ := stands j g hg rfl
    exact goes.page.trans (taken.arrives j _ slot st eq).page
  · have runs : view[x.channel].out ≠ none := by
      rw [← channels]
      exact end_.sound.laws.fading_runs hx end_.sound.resting
    have short := (end_.progress j x hx).1
    rcases late j x hx with k | ⟨n, hn⟩
    · exact .inl k
    rcases taken.slots j _ hn with k | ⟨g, hg, ⟨st, e⟩ | ⟨st, e⟩⟩
    · exact .inl k
    · obtain ⟨there, on'⟩ := st
      rw [occupied_at] at there
      obtain ⟨g', hg', own⟩ := Option.map_eq_some_iff.mp there
      have on : arrived.channels[g.channel].out ≠ none := by rw [← out_congr own]; exact running hg'
      obtain ⟨-, -, stands, -⟩ := through g.channel on on'
      obtain ⟨-, n', slot, -⟩ := stands j g' hg' own
      rw [hg] at slot
      obtain rfl := Option.some.inj slot
      obtain ⟨c, o, q, k, l, m⟩ := x
      obtain ⟨rfl, rfl, rfl, rfl, rfl, -⟩ := (Fade.mk.injEq ..).to_iff.mp e
      exact .inr ⟨g', hg', short, rfl⟩
    · obtain ⟨c, o, q, k, l, m⟩ := x
      obtain ⟨rfl, rfl, rfl, rfl, rfl, -⟩ := (Fade.mk.injEq ..).to_iff.mp e
      rcases old j g hg with k | ⟨n', hn'⟩
      · exact .inl k
      · exact absurd ⟨by rw [occupied_at, hn']; rfl, runs⟩ st

/-- The chain states of a channel enabled through the frame, whose run `run` the audio stored. -/
theorem FramePages.chainsAfter (h : FramePages view arrived found left t) (inv : SchedInv arrived) {c : Chan}
    (on : arrived.channels[c].out ≠ none) (on' : view[c].out ≠ none) {run : ChannelRun}
    (active : left.equaliser.active[c] = run.active) (target : left.equaliser.target[c] = run.target) :
    ChainsAfter arrived run c t := by
  obtain ⟨y, z, invy, taken, old, late, through⟩ := h.finds inv
  obtain ⟨goes, goes', stands, rests⟩ := through c on on'
  cases hs : (arrived.sched.switch[c]).slot with
  | none =>
    have still := taken.still c (rests hs)
    refine ⟨fun _ => ?_, fun arrives => ?_, fun p i hp => by rw [hp] at hs; cases hs⟩
    · rw [goes'.active, still.active, goes.active, active]
    · unfold arrivesIn at arrives
      rw [hs] at arrives
      cases arrives
  | some i =>
    obtain ⟨p, hp⟩ : ∃ p, arrived.sched.switch[c] = .fading p i := by
      cases hw : arrived.sched.switch[c] with
      | fading p j => rw [hw] at hs; exact ⟨p, by rw [← Option.some.inj hs]⟩
      | steady p => rw [hw] at hs; cases hs
      | queued p q => rw [hw] at hs; cases hs
    obtain ⟨g, hg, rfl, -⟩ := inv.sound.laws.fade_of hp
    obtain ⟨switch, n, slot, st⟩ := stands i g hg rfl
    have target' : y.equaliser.target[g.channel] = run.target := by
      obtain ⟨was, -, n', at_⟩ := (h.early.running _ ⟨on, on'⟩).fading p i g hp hg
      rw [← h.sched] at was at_
      rw [(goes.fading p i _ was at_).2.1, target]
    have completes : completesIn arrived i = (g.k + 1 == g.length) := by unfold completesIn; rw [hg]; rfl
    have arrives : arrivesIn arrived g.channel = (g.k + 1 == g.length) := by unfold arrivesIn; rw [hp]; exact completes
    have progress := (inv.progress i g hg).1
    have before : g.k + 1 ≠ g.length → SameChains g.channel y z ∧ t.equaliser.target[g.channel] = z.equaliser.target[g.channel] := by
      intro ne
      obtain ⟨same, chains, n', slot'⟩ := taken.steps i _ slot st (by dsimp only; omega)
      exact ⟨chains, (goes'.fading g.old i _ (same.trans switch) slot').2.1⟩
    refine ⟨fun no => ?_, fun yes head hhead => ?_, fun p' j hp' no => ?_⟩
    · rw [arrives, beq_eq_false_iff_ne] at no
      rw [goes'.active, (before no).1.1, goes.active, active]
    · rw [arrives, beq_iff_eq] at yes
      have now := (taken.arrives i _ slot st yes).active
      dsimp only at now
      rw [goes'.active, now, target', hhead]
      rfl
    · rw [hp] at hp'
      cases hp'
      rw [completes, beq_eq_false_iff_ne] at no
      rw [(before no).2, (before no).1.2, target']

end Sys2Proof.Machine
end

section
/-! The control word of a frame where it completes no message for an owner, and the control word a damaged frame drops: the
Ring Port's own act (R151, R155, R157, R158, R166). -/

namespace Sys2Proof.Machine

variable {s t u v : State} {w : Word32}

/-! ### The type of a word -/

theorem controlType_top (w : Word32) : w.extractLsb' 30 2 = bit (flagAt w 31) ++ bit (flagAt w 30) := by
  unfold flagAt bit
  grind

theorem controlType_iff (w : Word32) : (controlType w = .idle ↔ w.extractLsb' 30 2 = 0) ∧
    (controlType w = .header ↔ w.extractLsb' 30 2 = 1) ∧ (controlType w = .payload ↔ w.extractLsb' 30 2 = 2) ∧
    (controlType w = .clear ↔ w.extractLsb' 30 2 = 3) := by
  rw [controlType_top]
  unfold controlType
  cases flagAt w 31 <;> cases flagAt w 30 <;> decide

/-! ### What the assembler makes of the word -/

/-- The state a HEADER word finds once it has dropped what was in hand. -/
def lostBy (w : Word32) (s : State) : State := if w.extractLsb' 30 2 = 1 then s.collectingLost else s

/-- The header is a broadcast ROLL_CALL's. -/
def rolls (h : Header) : Bool := h.route.address == broadcast && isRollCall h.space h.command

theorem rolls_iff (h : Header) : rolls h = true ↔ callsRoll h := (callsRoll_iff h).symm

/-- The roll call's mark, where the word is the header of a broadcast ROLL_CALL. -/
def calledBy (w : Word32) (s : State) : State :=
  if w.extractLsb' 30 2 = 1 ∧ rolls (readHeader w) = true then markRoll s else s

/-- The assembler after a word that completes no message. -/
def nextAssembler (p : RingPort) (w : Word32) : Assembler :=
  match controlType w with
  | .idle => p.assembler
  | .clear => .idle
  | .header =>
    if (readHeader w).count = 0 then .idle
    else if (readHeader w).route.address = 31 ∨ answersTo p (readHeader w).route.address = true
    then .collecting (readHeader w) (readHeader w).count.toNat []
    else .skipping (readHeader w).count.toNat
  | .payload =>
    match p.assembler with
    | .idle => .idle
    | .collecting h n ws => .collecting h (n - 1) (ws ++ [readPayload w])
    | .skipping n => if n ≤ 1 then .idle else .skipping (n - 1)

/-- A broadcast ROLL_CALL that counts no payload word is its mark alone (R166). -/
theorem completeMessage_rollCall {h : Header} (roll : callsRoll h) (s : State) :
    completeMessage h [] s = { state := setAssembler .idle s, reset := false } := by
  obtain ⟨hb, space, code⟩ := roll
  unfold completeMessage
  rw [space, code]
  unfold judgeMessage
  rw [if_pos (show h.route.address = broadcast from hb)]
  rfl

theorem markRoll_setAssembler (a : Assembler) (s : State) : markRoll (setAssembler a s) = setAssembler a (markRoll s) := by
  unfold markRoll
  have same : rollBit (setAssembler a s).notices = rollBit s.notices := rfl
  rw [same]
  cases rollBit s.notices <;> rfl

theorem startMessage_neutral (h : Header) (none : h.count ≠ 0 ∨ callsRoll h ∨
    (h.route.address ≠ 31 ∧ answersTo s.port h.route.address = false)) :
    startMessage h s = { state := { (if rolls h then markRoll s else s) with
      port.assembler := if h.count = 0 then .idle else
        if h.route.address = 31 ∨ answersTo s.port h.route.address = true then .collecting h h.count.toNat []
        else .skipping h.count.toNat }, reset := false } := by
  by_cases roll : callsRoll h
  · have heard : h.route.address = 31 ∨ answersTo s.port h.route.address = true := .inl roll.1
    rw [startMessage_roll h roll, if_pos ((rolls_iff h).mpr roll), if_pos heard]
    unfold begun
    split
    · exact completeMessage_rollCall roll _
    · rfl
  · rw [if_neg fun e => roll ((rolls_iff h).mp e)]
    by_cases heard : h.route.address = 31 ∨ answersTo s.port h.route.address = true
    · have count : h.count ≠ 0 := by
        rcases none with c | c | ⟨other, unheard⟩
        · exact c
        · exact absurd c roll
        · exact absurd heard (not_or.mpr ⟨other, by rw [unheard]; decide⟩)
      rw [startMessage_heard h heard roll, if_neg count, if_pos heard]
      unfold begun
      rw [if_neg count]
    · obtain ⟨other, unheard⟩ := not_or.mp heard
      rw [startMessage_unheard h other (Bool.not_eq_true _ ▸ unheard), if_neg heard]

/-- A word that completes no message for an owner, and is no CLEAR. -/
theorem takeControlWord_neutral (h : HandsNothing s w) (clear : w.extractLsb' 30 2 ≠ 3) : takeControlWord w s =
    { state := { calledBy w (lostBy w s) with port.assembler := nextAssembler s.port w }, reset := false } := by
  obtain ⟨header, payload⟩ := h
  obtain ⟨isIdle, isHeader, isPayload, isClear⟩ := controlType_iff w
  unfold takeControlWord calledBy lostBy nextAssembler
  cases type : controlType w with
  | idle =>
    have other : w.extractLsb' 30 2 ≠ 1 := fun e => by rw [isHeader.mpr e] at type; cases type
    rw [if_neg fun e => other e.1, if_neg other]
  | clear => exact absurd (isClear.mp type) clear
  | header =>
    have is1 := isHeader.mp type
    have dropped : abandonMessage s = setAssembler .idle s.collectingLost := abandonMessage_eq s
    rw [if_pos is1, dropped]
    have none := header is1
    refine (startMessage_neutral (s := setAssembler .idle s.collectingLost) (readHeader w) ?_).trans ?_
    · exact none
    · have calls : (w.extractLsb' 30 2 = 1 ∧ rolls (readHeader w) = true) = (rolls (readHeader w) = true) := by
        rw [is1]; simp
      simp only [calls]
      split
      · rw [markRoll_setAssembler]
        rfl
      · rfl
  | payload =>
    have other : w.extractLsb' 30 2 ≠ 1 := fun e => by rw [isHeader.mpr e] at type; cases type
    rw [if_neg fun e => other e.1, if_neg other]
    dsimp only
    unfold takePayload
    cases ha : s.port.assembler with
    | idle =>
      have same : setAssembler .idle s = s := by rw [← ha]; rfl
      exact congrArg (Turn.mk · false) same.symm
    | collecting h n ws =>
      dsimp only
      rw [if_neg (by have := payload (isPayload.mp type) h n ws ha; omega)]
      rfl
    | skipping n => rfl

/-! ### The answer word after it -/

/-- The sender once a frame with control word `w` is through (R157, R158). -/
def Sender.after (w : Word32) : Sender → Sender
  | .quiet => .quiet
  | .answering _ [] _ => .quiet
  | .answering _ (v :: vs) d => if w.extractLsb' 30 2 = 3 then .quiet else .answering v vs d

/-- ANSWER as a frame with control word `w` leaves, having arrived with `old` (R157, R158). -/
def Sender.written (w old : Word32) : Sender → Word32
  | .quiet => old
  | .answering x _ _ => if w.extractLsb' 30 2 = 3 then old else x

theorem after_clear (clear : w.extractLsb' 30 2 = 3) (x : Sender) : x.after w = .quiet := by
  cases x with
  | quiet => rfl
  | answering x rest d =>
    cases rest with
    | nil => rfl
    | cons v vs => exact if_pos clear

theorem written_clear (clear : w.extractLsb' 30 2 = 3) (x : Sender) : (fun old => x.written w old) = id := by
  funext old
  cases x with
  | quiet => rfl
  | answering x rest d => exact if_pos clear

/-- What the Ring Port's own act makes of a state: the assembler, the sender, CTRL_LOST, and ROLL and ANSWER of the frame
in hand. -/
def afterWord (asm : Assembler) (sender : Sender) (lost : Bool) (roll : BitVec 8 → BitVec 8) (answer : Word32 → Word32)
    (u : State) : State :=
  { u with port.assembler := asm, port.sender := sender, notices.pending.ctrlLost := lost,
           ringOut := u.ringOut.map (onFields fun f => { f with roll := roll f.roll, answer := answer f.answer }) }

/-- The same without the answer. -/
def wordTaken (asm : Assembler) (lost : Bool) (roll : BitVec 8 → BitVec 8) (u : State) : State :=
  { u with port.assembler := asm, notices.pending.ctrlLost := lost,
           ringOut := u.ringOut.map (onFields fun f => { f with roll := roll f.roll }) }

theorem wordTaken_answered (asm : Assembler) (lost : Bool) (roll : BitVec 8 → BitVec 8) (sender : Sender) (x : Word32) :
    setSender sender (mapOut (onFields fun f => { f with answer := x }) (wordTaken asm lost roll u)) =
      afterWord asm sender lost roll (fun _ => x) u := by
  unfold setSender mapOut wordTaken afterWord
  dsimp only
  rw [Option.map_map]
  rfl

theorem writeAnswer_last {x : Word32} {d : Deferred} (h : s.port.sender = .answering x [] d) : writeAnswer s =
    applyDeferred d (setSender .quiet (mapOut (onFields fun f => { f with answer := x }) s)) := by
  unfold writeAnswer leaveAnswering
  rw [h]
  dsimp only
  rw [mapOut_port, h]

theorem writeAnswer_more {x v : Word32} {vs : List Word32} {d : Deferred} (h : s.port.sender = .answering x (v :: vs) d) :
    writeAnswer s = { state := setSender (.answering v vs d) (mapOut (onFields fun f => { f with answer := x }) s),
                      reset := false } := by
  unfold writeAnswer
  rw [h]

/-- A word taken at the Ring Port alone, and the answer word written after it. -/
theorem controlAct_own {control : State → Turn} {asm : Assembler} {lost : Bool} {roll : BitVec 8 → BitVec 8}
    (clear : w.extractLsb' 30 2 ≠ 3) (h : control u = { state := wordTaken asm lost roll u, reset := false }) :
    controlAct control u = applyDeferred (u.port.sender.deferredIn w)
      (afterWord asm (u.port.sender.after w) lost roll (fun old => u.port.sender.written w old) u) := by
  unfold controlAct
  rw [h]
  cases hs : u.port.sender with
  | quiet =>
    unfold wordTaken afterWord Sender.deferredIn Sender.after Sender.written applyDeferred
    dsimp only
    rw [← hs]
  | answering x rest d =>
    unfold Sender.deferredIn Sender.written
    dsimp only
    simp only [if_neg clear, Bool.false_or]
    cases rest with
    | nil =>
      rw [writeAnswer_last (s := wordTaken asm lost roll u) hs, wordTaken_answered, if_pos (.inr rfl)]
      rfl
    | cons y ys =>
      rw [writeAnswer_more (s := wordTaken asm lost roll u) hs, wordTaken_answered,
        if_neg (by rintro (e | e); exacts [clear e, by cases e])]
      have next : Sender.after w (.answering x (y :: ys) d) = .answering y ys d := if_neg clear
      rw [next]
      rfl

/-- A CLEAR word cuts the message and the answer (R158). -/
theorem controlAct_clear (clear : w.extractLsb' 30 2 = 3) : controlAct (takeControlWord w) u =
    applyDeferred (u.port.sender.deferredIn w) (afterWord .idle (u.port.sender.after w) u.notices.pending.ctrlLost id
      (fun old => u.port.sender.written w old) u) := by
  have taken : takeControlWord w u = takeClear u := by
    unfold takeControlWord; rw [(controlType_iff w).2.2.2.mpr clear]
  have same : afterWord .idle (u.port.sender.after w) u.notices.pending.ctrlLost id
      (fun old => u.port.sender.written w old) u = { u with port.assembler := .idle, port.sender := .quiet } := by
    have out : u.ringOut.map (onFields fun f => { f with roll := id f.roll, answer := id f.answer }) = u.ringOut := by
      cases u.ringOut <;> rfl
    rw [after_clear clear, written_clear clear]
    unfold afterWord
    rw [out]
  unfold controlAct
  rw [taken, takeClear_eq, same]
  cases hs : u.port.sender with
  | quiet => rfl
  | answering x rest d =>
    unfold Sender.deferredIn
    dsimp only
    rw [if_pos (.inl clear)]
    cases d <;> rfl

/-- ROLL with the mark of the assignment, the Notice Unit standing at `n` (R166). -/
def rollOf (n : NoticeUnit) (old : BitVec 8) : BitVec 8 := (rollBit n).elim old fun b => setBit b.val old

/-- What a control word makes of ROLL, the Notice Unit standing at `n` (R166). -/
def rollMark (w : Word32) (n : NoticeUnit) (old : BitVec 8) : BitVec 8 :=
  if w.extractLsb' 30 2 = 1 ∧ rolls (readHeader w) = true then rollOf n old else old

theorem markRoll_eq (intact : ∀ o ∈ s.ringOut, o.judged = .intact) : markRoll s =
    { s with ringOut := s.ringOut.map (onFields fun f => { f with roll := rollOf s.notices f.roll }) } := by
  unfold markRoll mapOut rollOf
  cases hb : rollBit s.notices with
  | none =>
    have out : s.ringOut.map (onFields fun f => { f with roll := f.roll }) = s.ringOut := by cases s.ringOut <;> rfl
    dsimp only [Option.elim_none]
    rw [out]
  | some b =>
    cases ho : s.ringOut with
    | none => rfl
    | some o =>
      have judged := intact o ho
      dsimp only [Option.map_some]
      rw [judged]
      rfl

theorem called_taken (intact : ∀ o ∈ u.ringOut, o.judged = .intact) (asm : Assembler) :
    ({ calledBy w (lostBy w u) with port.assembler := asm } : State) =
      wordTaken asm (lostBy w u).notices.pending.ctrlLost (rollMark w (lostBy w u).notices) u := by
  have lost : lostBy w u =
      { u with notices.pending.ctrlLost := (lostBy w u).notices.pending.ctrlLost } := by
    unfold lostBy
    split <;> rfl
  generalize lostBy w u = v at lost
  have intact' : ∀ o ∈ v.ringOut, o.judged = .intact := by rw [lost]; exact intact
  unfold calledBy wordTaken rollMark
  split
  · rename_i calls
    rw [markRoll_eq intact', lost]
  · have out : u.ringOut.map (onFields fun f => { f with roll := f.roll }) = u.ringOut := by cases u.ringOut <;> rfl
    rw [out, lost]

/-- The control word of an intact frame that completes no message for an owner (R155, R157, R158, R166). -/
theorem controlAct_neutral (h : HandsNothing u w) (intact : ∀ o ∈ u.ringOut, o.judged = .intact) :
    controlAct (takeControlWord w) u = applyDeferred (u.port.sender.deferredIn w)
      (afterWord (nextAssembler u.port w) (u.port.sender.after w) (lostBy w u).notices.pending.ctrlLost
        (rollMark w (lostBy w u).notices) (fun old => u.port.sender.written w old) u) := by
  by_cases clear : w.extractLsb' 30 2 = 3
  · have other : w.extractLsb' 30 2 ≠ 1 := by rw [clear]; decide
    have next : nextAssembler u.port w = .idle := by
      unfold nextAssembler; rw [(controlType_iff w).2.2.2.mpr clear]
    have roll : rollMark w (lostBy w u).notices = id := by
      funext old
      exact if_neg fun e => other e.1
    rw [controlAct_clear clear, next, roll]
    unfold lostBy
    rw [if_neg other]
  · exact controlAct_own clear (by rw [takeControlWord_neutral h clear, called_taken intact])

/-- The control word of a damaged frame is not read; what was in hand is dropped (R151). -/
theorem controlAct_damaged (u : State) : controlAct (fun t => { state := abandonMessage t, reset := false }) u =
    applyDeferred (u.port.sender.deferredIn 0) (afterWord .idle (u.port.sender.after 0)
      u.collectingLost.notices.pending.ctrlLost id (fun old => u.port.sender.written 0 old) u) := by
  refine controlAct_own (by decide) ?_
  have out : u.ringOut.map (onFields fun f => { f with roll := id f.roll }) = u.ringOut := by cases u.ringOut <;> rfl
  rw [abandonMessage_eq]
  unfold wordTaken
  rw [out]
  rfl

end Sys2Proof.Machine
end

section
/-! The two halves of a frame around its control word, and what the Ring Port's own part of that word moves. -/

namespace Sys2Proof.Machine

variable {s t a u v w : State} {x : FrameCtx} {l n : List FrameStep}

/-! ### The halves of a frame -/

/-- A frame in hand with nothing done. -/
def arrival (a : State) : FrameRun := { state := a, reset := false, runs := Vector.replicate 24 none }

theorem runActs_halves (x : FrameCtx) (order : FrameOrder) (routing : Bool) (a : State) : ∃ l n, Halves routing l n ∧
    runActs x order routing a =
      n.foldl (runStep x) (runStep x (l.foldl (runStep x) (arrival a)) (.act .control)) := by
  obtain ⟨l, n, e, halves⟩ := schedule_halves order routing
  refine ⟨l, n, halves, ?_⟩
  unfold runActs
  rw [e, List.foldl_append]
  rfl

theorem Halves.once {routing : Bool} (h : Halves routing l n) {b : FrameStep} (hb : b ≠ .act .control) : b ∈ l ∧ b ∉ n ∨ b ∉ l ∧ b ∈ n := by
  have apart := (List.nodup_append.mp h.nodup).2.2
  by_cases hl : b ∈ l
  · exact .inl ⟨hl, fun hn => apart b hl b hn rfl⟩
  · exact .inr ⟨hl, (h.all b hb).resolve_left hl⟩

theorem Halves.nodups {routing : Bool} (h : Halves routing l n) : l.Nodup ∧ n.Nodup :=
  ⟨(List.nodup_append.mp h.nodup).1, (List.nodup_append.mp h.nodup).2.1⟩

/-- From `u` to `v` the Ring Port's own act is done: only its part of the state differs. -/
def Dressed (u v : State) : Prop := ∃ asm sender lost roll answer address twin,
  v = { afterWord asm sender lost roll answer u with port.address := address, port.twin := twin }

theorem audioAct_sched (x : FrameCtx) (r : FrameRun) : (audioAct x r).state.sched = r.state.sched := by
  unfold audioAct storeAudio
  rw [mapOut_sched]

theorem Dressed.samePages (h : Dressed u v) : SamePages u v := by
  obtain ⟨asm, sender, lost, roll, answer, address, twin, e⟩ := h
  rw [e]
  exact .of_eq rfl rfl rfl rfl rfl

theorem Dressed.wave (h : Dressed u v) : wavePart v = wavePart u := by
  obtain ⟨asm, sender, lost, roll, answer, address, twin, e⟩ := h
  refine wavePart_eq_iff.mpr ?_
  rw [e]
  unfold afterWord
  exact ⟨rfl, rfl, by dsimp only; rw [Option.map_map]; rfl⟩

theorem Dressed.service (h : Dressed u v) : servicePart v = servicePart u := by
  obtain ⟨asm, sender, lost, roll, answer, address, twin, e⟩ := h
  rw [e]
  unfold servicePart afterWord
  dsimp only
  rw [Option.map_map]
  rfl

theorem Dressed.routing (h : Dressed u v) : v.channels = u.channels ∧ v.sources = u.sources := by
  obtain ⟨asm, sender, lost, roll, answer, address, twin, e⟩ := h
  rw [e]
  exact ⟨rfl, rfl⟩

end Sys2Proof.Machine
end

section
/-! What a control word does, whatever the word: the Ring Port's own part, and at most one command of an owner (R155,
R156). -/

namespace Sys2Proof.Machine

variable {s t u v x y : State} {w : Word32}

/-! ### The Ring Port's own part -/

theorem map_onFields_same (o : Option OutFrame) :
    (o.map (onFields fun f => { f with roll := id f.roll, answer := id f.answer })) = o := by
  cases o <;> rfl

theorem Dressed.of_eq (asm : Assembler) (sender : Sender) (lost : Bool) (address : Fin 31) (twin : Bool) : Dressed u
    { u with port.assembler := asm, port.sender := sender, port.address := address, port.twin := twin,
             notices.pending.ctrlLost := lost } := by
  refine ⟨asm, sender, lost, id, id, address, twin, ?_⟩
  unfold afterWord
  dsimp only
  rw [map_onFields_same]

theorem Dressed.refl (u : State) : Dressed u u :=
  .of_eq u.port.assembler u.port.sender u.notices.pending.ctrlLost u.port.address u.port.twin

theorem Dressed.trans (h : Dressed s t) (g : Dressed t u) : Dressed s u := by
  obtain ⟨asm, sender, lost, roll, answer, address, twin, e⟩ := h
  obtain ⟨asm', sender', lost', roll', answer', address', twin', e'⟩ := g
  refine ⟨asm', sender', lost', fun b => roll' (roll b), fun b => answer' (answer b), address', twin', ?_⟩
  rw [e', e]
  unfold afterWord
  dsimp only
  rw [Option.map_map]
  rfl

theorem dressed_setAssembler (a : Assembler) : Dressed s (setAssembler a s) :=
  .of_eq a s.port.sender s.notices.pending.ctrlLost s.port.address s.port.twin

theorem dressed_setSender (x : Sender) : Dressed s (setSender x s) :=
  .of_eq s.port.assembler x s.notices.pending.ctrlLost s.port.address s.port.twin

theorem dressed_notify : Dressed s (notify .ctrlLost s) := by
  rw [notify_ctrlLost]
  exact .of_eq s.port.assembler s.port.sender _ s.port.address s.port.twin

theorem dressed_applyDeferred (d : Deferred) : Dressed s (applyDeferred d s).state := by
  obtain ⟨address, twin, e⟩ := applyDeferred_eq d s
  rw [e]
  exact .of_eq s.port.assembler s.port.sender s.notices.pending.ctrlLost address twin

theorem dressed_answer (x : Word32) : Dressed s (mapOut (onFields fun f => { f with answer := x }) s) :=
  ⟨s.port.assembler, s.port.sender, s.notices.pending.ctrlLost, id, fun _ => x, s.port.address, s.port.twin, rfl⟩

/-- ROLL with bit `b` marked, where the frame in hand is an intact one (R166). -/
def markedRoll (out : Option OutFrame) (b : Nat) (old : BitVec 8) : BitVec 8 :=
  if out.map OutFrame.judged = some .intact then setBit b old else old

theorem dressed_markRoll : Dressed s (markRoll s) := by
  unfold markRoll
  split
  · exact .refl s
  · rename_i b _
    refine ⟨s.port.assembler, s.port.sender, s.notices.pending.ctrlLost, markedRoll s.ringOut b.val, id, s.port.address,
      s.port.twin, ?_⟩
    unfold mapOut afterWord
    dsimp only
    cases s.ringOut with
    | none => rfl
    | some o => cases o with | mk f j => cases j <;> rfl

theorem dressed_abandonMessage : Dressed s (abandonMessage s) := by
  unfold abandonMessage
  split
  · exact .refl s
  · exact (dressed_setAssembler .idle).trans dressed_notify
  · exact dressed_setAssembler .idle

theorem dressed_leaveAnswering : Dressed s (leaveAnswering s).state := by
  rw [leaveAnswering_eq]
  exact (dressed_setSender .quiet).trans (dressed_applyDeferred _)

theorem dressed_writeAnswer : Dressed s (writeAnswer s).state := by
  unfold writeAnswer
  split
  · exact .refl s
  · split
    · exact (dressed_answer _).trans dressed_leaveAnswering
    · exact (dressed_answer _).trans (dressed_setSender _)

/-! ### The command it hands on -/

/-- The command that a completed message hands to its owner, with the zone it names: none where it does not read, asks
for data by broadcast, or finds the sender ANSWERING (R156). -/
def judgedCommand (p : RingPort) (h : Header) (ws : List Payload) : Option (Zone × Command) :=
  match readMessage h.space h.command ws with
  | .unknown => none
  | .badLength => none
  | .command c =>
    if h.route.address = broadcast then (if isDataCode h.space h.command then none else some (routeZone p h.route, c))
    else
      match p.sender with
      | .quiet => some (routeZone p h.route, c)
      | .answering _ _ _ => none

/-- The command that a control word hands to an owner: that of a message it completes (R155). -/
def handedCommand (p : RingPort) (w : Word32) : Option (Zone × Command) :=
  match controlType w with
  | .idle => none
  | .clear => none
  | .header =>
    if ((readHeader w).route.address == broadcast || answersTo p (readHeader w).route.address) ∧ (readHeader w).count.toNat = 0
    then judgedCommand p (readHeader w) [] else none
  | .payload =>
    match p.assembler with
    | .idle => none
    | .collecting h n ws => if n ≤ 1 then judgedCommand p h (ws ++ [readPayload w]) else none
    | .skipping _ => none

/-- The owner's part. -/
def commanded : Option (Zone × Command) → State → State
  | none, s => s
  | some (z, c), s => (takeCommand z s c).state

/-- From `u` to `v` the Ring Port does its own part, an owner takes the command `o`, and the Ring Port does the rest of its
own. -/
def Takes (o : Option (Zone × Command)) (u v : State) : Prop := ∃ x, Dressed u x ∧ Dressed (commanded o x) v

theorem Dressed.takes {o : Option (Zone × Command)} (h : Dressed s t) (g : Takes o t u) : Takes o s u := by
  obtain ⟨x, before, after⟩ := g
  exact ⟨x, h.trans before, after⟩

theorem Takes.dressed {o : Option (Zone × Command)} (h : Takes o s t) (g : Dressed t u) : Takes o s u := by
  obtain ⟨x, before, after⟩ := h
  exact ⟨x, before, after.trans g⟩

theorem Dressed.takes_none (h : Dressed s t) : Takes none s t := ⟨s, .refl s, h⟩

theorem takes_completeMessage (h : Header) (ws : List Payload) (s : State) :
    Takes (judgedCommand s.port h ws) s (completeMessage h ws s).state := by
  refine (dressed_setAssembler .idle).takes ?_
  have port : judgedCommand s.port h ws = judgedCommand (setAssembler .idle s).port h ws := rfl
  rw [port]
  unfold completeMessage
  generalize setAssembler .idle s = s
  unfold judgedCommand judgeMessage
  by_cases hb : h.route.address = broadcast
  · simp only [if_pos hb]
    unfold broadcastMessage
    cases readMessage h.space h.command ws with
    | unknown => exact (Dressed.refl s).takes_none
    | badLength => exact (Dressed.refl s).takes_none
    | command c =>
      dsimp only
      split
      · exact (Dressed.refl s).takes_none
      · exact ⟨s, .refl s, dressed_applyDeferred _⟩
  · simp only [if_neg hb]
    cases s.port.sender with
    | answering x rest d =>
      cases readMessage h.space h.command ws <;> exact dressed_notify.takes_none
    | quiet =>
      unfold answerMessage startAnswer
      cases readMessage h.space h.command ws with
      | unknown => exact (dressed_setSender _).takes_none
      | badLength => exact (dressed_setSender _).takes_none
      | command c => exact ⟨s, .refl s, dressed_setSender _⟩

/-- What a message handed on depends on. -/
theorem judgedCommand_congr {p q : RingPort} (sender : q.sender = p.sender) (twin : q.twin = p.twin) (h : Header)
    (ws : List Payload) : judgedCommand q h ws = judgedCommand p h ws := by
  unfold judgedCommand routeZone
  rw [sender, twin]

theorem handedCommand_congr {p q : RingPort} (assembler : q.assembler = p.assembler) (sender : q.sender = p.sender)
    (address : q.address = p.address) (twin : q.twin = p.twin) (w : Word32) : handedCommand q w = handedCommand p w := by
  unfold handedCommand answersTo
  simp only [judgedCommand_congr sender twin, assembler, address, twin]

theorem takes_startMessage (h : Header) (s : State) : Takes
    (if (h.route.address == broadcast || answersTo s.port h.route.address) ∧ h.count.toNat = 0 then judgedCommand s.port h []
     else none) s (startMessage h s).state := by
  unfold startMessage
  have marked : Dressed s (if (h.route.address == broadcast && isRollCall h.space h.command) = true then markRoll s else s) := by
    split
    · exact dressed_markRoll
    · exact .refl s
  have port : (if (h.route.address == broadcast && isRollCall h.space h.command) = true then markRoll s else s).port = s.port := by
    split
    · unfold markRoll; split <;> rfl
    · rfl
  dsimp only
  generalize (if (h.route.address == broadcast && isRollCall h.space h.command) = true then markRoll s else s) = t at marked port
  refine marked.takes ?_
  rw [← port]
  by_cases heard : (h.route.address == broadcast || answersTo t.port h.route.address) = true
  · by_cases count : h.count.toNat = 0
    · rw [if_pos heard, if_pos count, if_pos ⟨heard, count⟩]
      exact takes_completeMessage h [] t
    · rw [if_pos heard, if_neg count, if_neg fun e => count e.2]
      exact (dressed_setAssembler _).takes_none
  · rw [if_neg heard, if_neg fun e => heard e.1]
    refine Dressed.takes_none ?_
    split <;> exact dressed_setAssembler _

theorem takes_takeControlWord (w : Word32) (s : State) : Takes (handedCommand s.port w) s (takeControlWord w s).state := by
  unfold takeControlWord handedCommand
  cases controlType w with
  | idle => exact (Dressed.refl s).takes_none
  | clear => exact ((dressed_setAssembler _).trans dressed_leaveAnswering).takes_none
  | header =>
    have lost := dressed_abandonMessage (s := s)
    have port := abandonMessage_eq s
    refine lost.takes ?_
    have same := takes_startMessage (readHeader w) (abandonMessage s)
    have judged : judgedCommand (abandonMessage s).port (readHeader w) [] = judgedCommand s.port (readHeader w) [] := by
      rw [port]; exact judgedCommand_congr rfl rfl _ _
    have answers : answersTo (abandonMessage s).port (readHeader w).route.address =
        answersTo s.port (readHeader w).route.address := by
      rw [port]; rfl
    rw [judged, answers] at same
    exact same
  | payload =>
    unfold takePayload
    cases s.port.assembler with
    | idle => exact (Dressed.refl s).takes_none
    | skipping n => exact (dressed_setAssembler _).takes_none
    | collecting h n ws =>
      dsimp only
      split
      · exact takes_completeMessage ..
      · exact (dressed_setAssembler _).takes_none

/-- The control word's act, the answer word with it. -/
theorem takes_controlAct (w : Word32) (s : State) :
    Takes (handedCommand s.port w) s (controlAct (takeControlWord w) s).state := by
  have taken := takes_takeControlWord w s
  unfold controlAct
  cases s.port.sender with
  | quiet => exact taken
  | answering x rest d => exact taken.dressed dressed_writeAnswer

end Sys2Proof.Machine
end

section
/-! What a control word leaves of what the frame's other acts move (R19, R24, R61, R66, R79). -/

namespace Sys2Proof.Machine

variable {s t u v x y : State} {o : Option (Zone × Command)}

/-- From `s` to `t` the pins, the lane counts, the currents, the DUCK line's record, the held samples of unchanged sources, and the
delays of the channels that stay enabled. -/
structure KeepsFrame (s t : State) : Prop where
  pins : t.pins = s.pins
  currents : t.ramp.currents = s.ramp.currents
  counts : ∀ l : Lane, (t.ramp.lanes.get l).count = (s.ramp.lanes.get l).count
  duck : t.duck = s.duck
  held : t.sources = s.sources → t.port.held = s.port.held
  delays : ∀ c : Chan, s.channels[c].out ≠ none → t.channels[c].out ≠ none → t.port.delays[c] = s.port.delays[c]

theorem KeepsFrame.of_eq (pins : t.pins = s.pins) (ramp : t.ramp = s.ramp) (duck : t.duck = s.duck) (held : t.port.held = s.port.held)
    (delays : t.port.delays = s.port.delays) : KeepsFrame s t :=
  ⟨pins, by rw [ramp], fun l => by rw [ramp], duck, fun _ => held, fun c _ _ => by rw [delays]⟩

theorem Dressed.keepsFrame (h : Dressed u v) : KeepsFrame u v := by
  obtain ⟨asm, sender, lost, roll, answer, address, twin, e⟩ := h
  rw [e]
  exact .of_eq rfl rfl rfl rfl rfl

theorem Owned.keepsFrame (h : Owned s t) : KeepsFrame s t := by
  cases h with
  | nothing => exact .of_eq rfl rfl rfl rfl rfl
  | pace l p a r hp ha hr =>
    refine ⟨rfl, rfl, fun k => ?_, rfl, fun _ => rfl, fun _ _ _ => rfl⟩
    refine (congrArg LaneSettings.count (setLane_get l k _ s.ramp.lanes)).trans ?_
    split
    · rename_i e; rw [e]
    · rfl
  | source i slot free =>
    refine ⟨rfl, rfl, fun _ => rfl, rfl, fun same => if_pos ?_, fun _ _ _ => rfl⟩
    have same' : s.sources.set i slot = s.sources := same
    rw [← same', get_set, if_pos rfl]
  | record c r others unread taps placement levels =>
    have frame := loadRecord_frame (s := s) c r
    refine ⟨by simp, by simp, fun l => by simp, by simp, fun _ => by simp, fun d on after => ?_⟩
    by_cases hd : d = c
    · subst hd
      have on' : r.out ≠ none := by
        rw [show (loadRecord d r s).channels = s.channels.set d r by simp, get_set, if_pos rfl] at after
        exact after
      rw [frame.running on']
    · exact frame.delays d hd
  | coeffs | program | kinds | polled | roll | metersRead => exact .of_eq rfl rfl rfl rfl rfl
  | _ => apply KeepsFrame.of_eq <;> simp

/-! ### The routing records -/

/-- The source records after a command: only LOAD_SOURCE changes one (R18, R19). -/
def sourcesAfter (c : Command) (chs : Vector ChannelRecord 24) (srcs : Vector (Option AudioSlot) 8) :
    Vector (Option AudioSlot) 8 :=
  match c with
  | .loadSource i p k =>
    if h : i.toNat < 8 then
      if (optSlot p k).any fun n => (List.finRange 24).any fun d : Chan => chs[d].out == some n then srcs
      else srcs.set (⟨i.toNat, h⟩ : SourceId) (optSlot p k)
    else srcs
  | _ => srcs

theorem takeCommand_sourcesAfter (z : Zone) (s : State) (c : Command) :
    (takeCommand z s c).state.sources = sourcesAfter c s.channels s.sources := by
  cases c with
  | loadSource i p k =>
    have written : (slotWritten s fun _ => false) = fun n => (List.finRange 24).any fun d : Chan => s.channels[d].out == some n := by
      funext n
      simp [slotWritten]
    simp only [takeCommand, takeLoadSource, sourcesAfter, written]
    split
    · split <;> rfl
    · rfl
  | _ =>
    refine (takeCommand_sources (s := s) z _).elim id ?_
    rintro ⟨_, _, _, _, _, e, -⟩
    cases e

/-- The channel records a command leaves, and the source records. -/
def channelsOf (o : Option (Zone × Command)) (chs : Vector ChannelRecord 24) (srcs : Vector (Option AudioSlot) 8) :
    Vector ChannelRecord 24 := o.elim chs fun zc => channelsAfter zc.2 chs srcs

def sourcesOf (o : Option (Zone × Command)) (chs : Vector ChannelRecord 24) (srcs : Vector (Option AudioSlot) 8) :
    Vector (Option AudioSlot) 8 := o.elim srcs fun zc => sourcesAfter zc.2 chs srcs

theorem Takes.routing (h : Takes o u v) :
    v.channels = channelsOf o u.channels u.sources ∧ v.sources = sourcesOf o u.channels u.sources := by
  obtain ⟨x, before, after⟩ := h
  rw [← before.routing.1, ← before.routing.2, after.routing.1, after.routing.2]
  cases o with
  | none => exact ⟨rfl, rfl⟩
  | some zc => exact ⟨(takeCommand_frame x zc.1 zc.2).channels, takeCommand_sourcesAfter zc.1 x zc.2⟩

/-! ### The frame's other moves -/

/-- A control word at the Ring Port and at an owner. -/
theorem Takes.keepsFrame (h : Takes o u v) : KeepsFrame u v := by
  obtain ⟨x, before, after⟩ := h
  have first := before.keepsFrame
  have last := after.keepsFrame
  obtain ⟨channels, sources⟩ := before.routing
  obtain ⟨channels', sources'⟩ := after.routing
  have owned : KeepsFrame x (commanded o x) := by
    cases o with
    | none => exact .of_eq rfl rfl rfl rfl rfl
    | some zc => exact (takeCommand_owned zc.1 x zc.2).keepsFrame
  refine ⟨?_, ?_, fun l => ?_, ?_, fun same => ?_, fun c on on' => ?_⟩
  · rw [last.pins, owned.pins, first.pins]
  · rw [last.currents, owned.currents, first.currents]
  · rw [last.counts, owned.counts, first.counts]
  · rw [last.duck, owned.duck, first.duck]
  · rw [last.held sources', owned.held (by rw [← sources', sources, same]), first.held sources]
  · have here : (commanded o x).channels[c].out ≠ none := by rw [← channels']; exact on'
    have there : x.channels[c].out ≠ none := by rw [channels]; exact on
    rw [last.delays c here on', owned.delays c there here, first.delays c on there]

/-- The frame in hand, but for ROLL and ANSWER. -/
theorem Takes.out (h : Takes o u v) : ∃ (roll : BitVec 8 → BitVec 8) (answer : Word32 → Word32), v.ringOut =
    u.ringOut.map (onFields fun f => { f with roll := roll f.roll, answer := answer f.answer }) := by
  obtain ⟨x, ⟨_, _, _, roll, answer, _, _, rfl⟩, ⟨_, _, _, roll', answer', _, _, e⟩⟩ := h
  have owned (y : State) : (commanded o y).ringOut = y.ringOut := by
    cases o with
    | none => rfl
    | some zc => exact (takeCommand_frame y zc.1 zc.2).ringOut
  refine ⟨fun b => roll' (roll b), fun b => answer' (answer b), ?_⟩
  rw [e]
  unfold afterWord
  dsimp only
  rw [owned]
  exact Option.map_map ..

/-! ### Pages -/

theorem Takes.schedInv (h : Takes o u v) (inv : SchedInv u) : SchedInv v := by
  obtain ⟨x, before, after⟩ := h
  have inv' : SchedInv x := inv.of_same before.samePages.sameSched
  refine SchedInv.of_same ?_ after.samePages.sameSched
  cases o with
  | none => exact inv'
  | some zc => exact inv'.pageAct (takeCommand_owned zc.1 x zc.2).pageAct

theorem Takes.keepsRunning {P : Chan → Prop} (h : Takes o u v) (inv : SchedInv u) (on : ∀ d, P d → u.channels[d].out ≠ none)
    (on' : ∀ d, P d → v.channels[d].out ≠ none) : KeepsRunning P u v := by
  obtain ⟨x, before, after⟩ := h
  have inv' : SchedInv x := inv.of_same before.samePages.sameSched
  refine (before.samePages.keepsRunning.trans ?_).trans after.samePages.keepsRunning
  cases o with
  | none => exact .refl P x
  | some zc =>
    refine (takeCommand_owned zc.1 x zc.2).pageAct.keepsRunning inv' (fun d hd => ?_) fun d hd => ?_
    · rw [before.routing.1]; exact on d hd
    · exact fun off => on' d hd (by rw [after.routing.1]; exact off)

end Sys2Proof.Machine
end

section
/-! A frame around its control word, whatever the word: what it counts (R59, R66, R79, R93). -/

namespace Sys2Proof.Machine

variable {s t a u v w y z : State} {x : FrameCtx} {l n m : List FrameStep} {routing : Bool} {o : Option (Zone × Command)}

theorem FrameActs.around (h : FrameActs s u) : Around s u := by
  obtain ⟨h1, h2, h3, h4, h5, h6, h7, h8, h9, h10, h11, h12, h13, h14, -, h15, h16, h17, h18, h19, h20⟩ := h
  exact ⟨h1, h2, h3, h4, h5, h6, h7, h8, h9, h10, h11, h12, h13, h14, h15, h16, h17, h18, h19, h20⟩

/-- A frame from `a`: its acts before the word leave `u`, the word `v`, and the acts after it `w`. -/
structure WordFrame (x : FrameCtx) (routing : Bool) (l n : List FrameStep) (o : Option (Zone × Command)) (a u v w : State) :
    Prop where
  halves : Halves routing l n
  before : (l.foldl (runStep x) (arrival a)).state = u
  word : (runStep x (l.foldl (runStep x) (arrival a)) (.act .control)).state = v
  after : (n.foldl (runStep x) (runStep x (l.foldl (runStep x) (arrival a)) (.act .control))).state = w
  taken : Takes o u v

section
variable (h : WordFrame x routing l n o a u v w)
include h

theorem WordFrame.early : FrameActs a u := by
  have acts := half_acts (x := x) h.halves.early h.halves.nodups.1 (arrival a)
  rw [h.before] at acts
  exact acts

theorem WordFrame.late : FrameActs v w := by
  have acts := half_acts (x := x) h.halves.late h.halves.nodups.2
    (runStep x (l.foldl (runStep x) (arrival a)) (.act .control))
  rw [h.after, h.word] at acts
  exact acts

/-- The routing records are those the word leaves, wherever it is taken. -/
theorem WordFrame.routed : v.channels = channelsOf o a.channels a.sources ∧ v.sources = sourcesOf o a.channels a.sources := by
  obtain ⟨channels, sources⟩ := h.taken.routing
  rw [channels, sources, h.early.channels, h.early.sources]
  exact ⟨rfl, rfl⟩

/-! ### The staleness counter and the DUCK line -/

theorem WordFrame.tracks : (trackPart u = trackPart (tracked a) ∧ trackPart w = trackPart v) ∨
    (trackPart u = trackPart a ∧ trackPart w = trackPart (tracked v)) := by
  obtain ⟨nl, nn⟩ := h.halves.nodups
  have early := half_track (x := x) h.halves.early nl (arrival a)
  have late := half_track (x := x) h.halves.late nn (runStep x (l.foldl (runStep x) (arrival a)) (.act .control))
  rw [h.before] at early
  rw [h.after, h.word] at late
  rcases h.halves.once (b := .act .staleness) (by simp) with ⟨hl, hn⟩ | ⟨hl, hn⟩
  · rw [if_pos hl] at early
    rw [if_neg hn] at late
    exact .inl ⟨early, late⟩
  · rw [if_neg hl] at early
    rw [if_pos hn] at late
    exact .inr ⟨early, late⟩

theorem WordFrame.tracker : (u.speed = a.speed.counted ∧ w.speed = v.speed) ∨
    (u.speed = a.speed ∧ w.speed = v.speed.counted) := by
  have counts (s : State) : (tracked s).speed = s.speed.counted := (withTracker_cases s _).1
  rw [← counts, ← counts]
  exact h.tracks.imp (fun ⟨p, q⟩ => ⟨(trackPart_eq_iff.mp p).1, (trackPart_eq_iff.mp q).1⟩)
    fun ⟨p, q⟩ => ⟨(trackPart_eq_iff.mp p).1, (trackPart_eq_iff.mp q).1⟩

theorem WordFrame.drops : (LineSampled a u ∧ dropPart w = dropPart v) ∨ (dropPart u = dropPart a ∧ LineSampled v w) := by
  obtain ⟨nl, nn⟩ := h.halves.nodups
  have early := half_drop (x := x) h.halves.early nl (arrival a)
  have late := half_drop (x := x) h.halves.late nn (runStep x (l.foldl (runStep x) (arrival a)) (.act .control))
  rw [h.before] at early
  rw [h.after, h.word] at late
  exact (h.halves.once (b := .act .duckLine) (by simp)).imp (fun ⟨hl, hn⟩ => ⟨early.1 hl, late.2 hn⟩)
    fun ⟨hl, hn⟩ => ⟨early.2 hl, late.1 hn⟩

theorem WordFrame.line : (1 < a.duck.count → w.duck = { a.duck with count := a.duck.count - 1 }) ∧
    (a.duck.count ≤ 1 → w.duck.count = 48 ∧ w.duck.previous = a.pins.duck ∧
      w.duck.level = if a.pins.duck = a.duck.previous then a.pins.duck else a.duck.level) := by
  have kept := h.taken.keepsFrame
  rcases h.drops with ⟨sampled, stands⟩ | ⟨stands, sampled⟩
  · rw [(dropPart_eq_iff.mp stands).1, kept.duck]
    exact ⟨sampled.counts, sampled.sampled⟩
  · have same : v.duck = a.duck := kept.duck.trans (dropPart_eq_iff.mp stands).1
    have pins : v.pins = a.pins := kept.pins.trans h.early.pins
    obtain ⟨counts, samples⟩ := And.intro sampled.counts sampled.sampled
    rw [same] at counts
    rw [same, pins] at samples
    exact ⟨counts, samples⟩

/-! ### The lanes -/

theorem WordFrame.lanes (k : Lane) :
    ((LaneCounts k a a.gain.targets u ∨ LaneCounts k a u.gain.targets u) ∧ LaneStands k v w) ∨
      (LaneStands k a u ∧ (LaneCounts k v v.gain.targets w ∨ LaneCounts k v w.gain.targets w)) := by
  obtain ⟨nl, nn⟩ := h.halves.nodups
  rcases h.halves.once (b := .act (.count k)) (by simp) with ⟨hl, hn⟩ | ⟨hl, hn⟩
  · have early := half_lane_counts (x := x) h.halves.early nl hl (arrival a)
    have late := half_lane_stands (x := x) h.halves.late hn (runStep x (l.foldl (runStep x) (arrival a)) (.act .control))
    rw [h.before] at early
    rw [h.after, h.word] at late
    exact .inl ⟨early, late⟩
  · have early := half_lane_stands (x := x) h.halves.early hl (arrival a)
    have late := half_lane_counts (x := x) h.halves.late nn hn
      (runStep x (l.foldl (runStep x) (arrival a)) (.act .control))
    rw [h.before] at early
    rw [h.after, h.word] at late
    exact .inr ⟨early, late⟩

/-- Each prescaler counts the frame once, reloaded with a period in force in it; only a tick moves a current. -/
theorem WordFrame.prescaler (k : Lane) :
    (1 < (a.ramp.lanes.get k).count → (w.ramp.lanes.get k).count = (a.ramp.lanes.get k).count - 1 ∧
      w.ramp.currents.ofLane k = a.ramp.currents.ofLane k) ∧
    ((a.ramp.lanes.get k).count = 1 → (w.ramp.lanes.get k).count = 48 * ((a.ramp.lanes.get k).period + 1) ∨
      (w.ramp.lanes.get k).count = 48 * ((w.ramp.lanes.get k).period + 1)) := by
  have kept := h.taken.keepsFrame
  have between : v.ramp.currents.ofLane k = u.ramp.currents.ofLane k := by rw [kept.currents]
  rcases h.lanes k with ⟨counts, lane, currents⟩ | ⟨⟨lane, currents⟩, counts⟩
  · obtain ⟨tgt, counts⟩ : ∃ tgt, LaneCounts k a tgt u := counts.elim (fun c => ⟨_, c⟩) fun c => ⟨_, c⟩
    have count : (w.ramp.lanes.get k).count = (u.ramp.lanes.get k).count := by rw [lane, kept.counts]
    rw [count, counts.count]
    refine ⟨fun more => ?_, fun last => .inl (if_pos last.le)⟩
    have due : ¬ (a.ramp.lanes.get k).count ≤ 1 := by omega
    refine ⟨if_neg due, ?_⟩
    rw [currents, between, counts.currents, if_neg due]
  · obtain ⟨tgt, counts⟩ : ∃ tgt, LaneCounts k v tgt w := counts.elim (fun c => ⟨_, c⟩) fun c => ⟨_, c⟩
    have count : (v.ramp.lanes.get k).count = (a.ramp.lanes.get k).count := by rw [kept.counts, lane]
    have counted := counts.count
    refine ⟨fun more => ?_, fun last => .inr ?_⟩
    · have due : ¬ (v.ramp.lanes.get k).count ≤ 1 := by omega
      rw [counts.currents, counted, if_neg due, between, currents]
      exact ⟨congrArg (· - 1) count, if_neg due⟩
    · rw [counted]
      exact if_pos (by omega)

/-! ### The meters -/

/-- The meters hear the audio of a frame whose audio comes first. -/
theorem WordFrame.hears_first (plain : routing = false) :
    (Metered (runOf x a) x.view a u ∧ gaugePart w = gaugePart v) ∨
      (gaugePart u = gaugePart a ∧ Metered (runOf x a) x.view v w) := by
  obtain ⟨nl, nn⟩ := h.halves.nodups
  obtain ⟨m, e⟩ := h.halves.first plain
  have control := h.halves.early
  have nodup := h.halves.nodup
  have before := h.before
  have word := h.word
  have after := h.after
  rw [e] at control nl nodup before word after
  obtain ⟨out, nm⟩ := List.nodup_cons.mp nl
  have out' : .audio ∉ n := fun hn => (List.nodup_append.mp nodup).2.2 _ List.mem_cons_self _ hn rfl
  have runs : RunsOf x.view (runOf x a) (audioAct x (arrival a)).runs := runsOf_audioAct x (arrival a)
  have kept : (runStep x ((.audio :: m).foldl (runStep x) (arrival a)) (.act .control)).runs =
      (audioAct x (arrival a)).runs := half_runs (x := x) out (audioAct x (arrival a))
  have gauge : gaugePart (audioAct x (arrival a)).state = gaugePart a :=
    gauge_keeps (x := x) (c := .audio) (by simp) (by simp) (arrival a)
  obtain ⟨early, early'⟩ := half_meters (x := x) (fun hm => control (List.mem_cons_of_mem _ hm)) out nm
    (audioAct x (arrival a)) runs
  obtain ⟨late, late'⟩ := half_meters (x := x) h.halves.late out' nn
    (runStep x ((.audio :: m).foldl (runStep x) (arrival a)) (.act .control)) (by rw [kept]; exact runs)
  rw [show (m.foldl (runStep x) (audioAct x (arrival a))).state = u from before] at early early'
  rw [after, word] at late late'
  rcases h.halves.once (b := .act .meters) (by simp) with ⟨hl, hn⟩ | ⟨hl, hn⟩
  · rw [e] at hl
    exact .inl ⟨(early ((List.mem_cons.mp hl).resolve_left (by simp))).congr gauge.symm rfl, late' hn⟩
  · rw [e] at hl
    exact .inr ⟨(early' fun hm => hl (List.mem_cons_of_mem _ hm)).trans gauge, late hn⟩

/-- The meters hear the audio of a frame whose audio waits for the word. -/
theorem WordFrame.hears_after (rerouted : routing = true) : u.output = a.output ∧ Metered (runOf x v) x.view v w := by
  obtain ⟨⟨m, e⟩, hl, -⟩ := h.halves.after rerouted
  have control := h.halves.late
  have nodup := h.halves.nodups.2
  have after := h.after
  have here : (.act .meters : FrameStep) ∈ n :=
    ((h.halves.once (b := .act .meters) (by simp)).resolve_left fun p => hl p.1).2
  rw [e] at control nodup here after
  obtain ⟨out, nm⟩ := List.nodup_cons.mp nodup
  have still := fold_keeps (p := fun r => gaugePart r.state)
    (fun c hc => gauge_keeps (x := x) (ne_control h.halves.early hc) fun eq => hl (eq ▸ hc)) (arrival a)
  have found := (gaugePart_eq_iff.mp still).1
  have word := h.word
  rw [h.before] at found
  generalize runStep x (l.foldl (runStep x) (arrival a)) (.act .control) = q at after word
  have runs : RunsOf x.view (runOf x v) (audioAct x q).runs := by
    rw [← word]
    exact runsOf_audioAct x q
  have gauge : gaugePart (audioAct x q).state = gaugePart q.state :=
    gauge_keeps (x := x) (c := .audio) (by simp) (by simp) q
  have late := (half_meters (x := x) (fun hm => control (List.mem_cons_of_mem _ hm)) out nm (audioAct x q) runs).1
    ((List.mem_cons.mp here).resolve_left (by simp))
  rw [show (m.foldl (runStep x) (audioAct x q)).state = w from after] at late
  exact ⟨found, late.congr (by rw [gauge, word]) rfl⟩

end

end Sys2Proof.Machine
end

section
/-! Such a frame's audio and pages: the audio first, or right after a word that changes the routing (R19, R24, R26, R28, R31,
R124, R135). -/

namespace Sys2Proof.Machine

variable {s t a u v w y z : State} {x : FrameCtx} {l n m : List FrameStep} {routing : Bool} {o : Option (Zone × Command)}
variable {out : OutFrame} {words : Vector Sample 32}

theorem wave_out {g : State} (e : wavePart t = wavePart s) (same : g.ringOut.map (fun o => o.frame.fields.slots) =
    s.ringOut.map fun o => o.frame.fields.slots) :
    t.ringOut.map (fun o => o.frame.fields.slots) = g.ringOut.map fun o => o.frame.fields.slots := by
  have all := congrArg (Option.map Prod.fst) (wavePart_eq_iff.mp e).2.2
  rw [Option.map_map, Option.map_map] at all
  exact all.trans same.symm

theorem Takes.slots_same (h : Takes o u v) : v.ringOut.map (fun o => o.frame.fields.slots) =
    u.ringOut.map fun o => o.frame.fields.slots := by
  obtain ⟨roll, answer, e⟩ := h.out
  rw [e, Option.map_map]
  rfl

theorem held_sample (s : State) (words : Vector Sample 32) {i : SourceId} {k : AudioSlot} (h : s.sources[i] = some k) :
    (heldAfter s (samplesFrom s words))[i] = words[k] := by
  rw [heldAfter_at, h, if_neg (by simp), samplesFrom_at s words h]

section
variable (h : WordFrame x routing l n o a u v w)
include h

/-! ### The audio first -/

theorem WordFrame.wave_first (plain : routing = false) :
    wavePart u = wavePart (audioAct x (arrival a)).state ∧ wavePart w = wavePart v := by
  obtain ⟨m, e⟩ := h.halves.first plain
  have control := h.halves.early
  have nodup := h.halves.nodup
  have before := h.before
  rw [e] at control nodup before
  obtain ⟨out, -⟩ := List.nodup_cons.mp nodup
  have out' := not_or.mp fun hm => out (List.mem_append.mpr hm)
  have early := half_wave (x := x) (fun hm => control (List.mem_cons_of_mem _ hm)) out'.1 (audioAct x (arrival a))
  have late := half_wave (x := x) h.halves.late out'.2 (runStep x (l.foldl (runStep x) (arrival a)) (.act .control))
  rw [show (m.foldl (runStep x) (audioAct x (arrival a))).state = u from before] at early
  rw [h.after, h.word] at late
  exact ⟨early, late⟩

/-- The audio of the records the word leaves, on the state the frame found. -/
theorem WordFrame.moves_first (plain : routing = false) (view : x.view = v.channels) (once : WrittenOnce v.channels)
    (on : ∀ c : Chan, v.channels[c].out ≠ none → a.channels[c].out ≠ none) (hand : a.ringOut = some out) {y : OutFrame}
    (leaves : w.ringOut = some y) {taken : Vector Sample 8} (same : runOf x a = frameRun a a x.view taken) :
    AudioMoves a a v.channels taken out.frame.fields y.frame.fields w := by
  obtain ⟨early, late⟩ := h.wave_first plain
  have kept := h.taken.keepsFrame
  rw [← view] at once ⊢
  refine audioMoves_audioAct (x := x) (r := arrival a) (t := w) once hand rfl ?_ (by rw [leaves]; rfl) (fun c running => ?_)
    same
  · exact (wave_out late (h.taken.slots_same.symm ▸ rfl)).trans (wave_out early rfl)
  · rw [view] at running
    have on' : u.channels[c].out ≠ none := by rw [h.early.channels]; exact on c running
    rw [(wavePart_eq_iff.mp late).2.1, kept.delays c on' running, (wavePart_eq_iff.mp early).2.1]

theorem WordFrame.held_first (plain : routing = false) (sources : v.sources = a.sources) (intact : x.slots = some words)
    {i : SourceId} {k : AudioSlot} (present : v.sources[i] = some k) : w.port.held[i] = words[k] := by
  obtain ⟨early, late⟩ := h.wave_first plain
  have held : v.port.held = u.port.held := h.taken.keepsFrame.held (sources.trans h.early.sources.symm)
  rw [(wavePart_eq_iff.mp late).1, held, (wavePart_eq_iff.mp early).1, audioAct_held, intact, sourceSamples_intact]
  exact held_sample a words (by rw [← sources]; exact present)

/-! ### The audio after the word -/

theorem WordFrame.wave_after (rerouted : routing = true) : ∃ q : FrameRun, q.state = v ∧
    wavePart w = wavePart (audioAct x q).state := by
  obtain ⟨⟨m, e⟩, -⟩ := h.halves.after rerouted
  have control := h.halves.late
  have nodup := h.halves.nodups.2
  have after := h.after
  rw [e] at control nodup after
  obtain ⟨out, -⟩ := List.nodup_cons.mp nodup
  refine ⟨_, h.word, ?_⟩
  rw [← after]
  exact half_wave (x := x) (fun hm => control (List.mem_cons_of_mem _ hm)) out (audioAct x _)

/-- No act before the word moves the audio slots of the frame in hand. -/
theorem WordFrame.found_after (rerouted : routing = true) : v.ringOut.map (fun o => o.frame.fields.slots) =
    a.ringOut.map fun o => o.frame.fields.slots := by
  obtain ⟨⟨m, e⟩, -⟩ := h.halves.after rerouted
  have silent : .audio ∉ l := fun hm => (List.nodup_append.mp h.halves.nodup).2.2 _ hm _ (e ▸ List.mem_cons_self) rfl
  have early := half_wave (x := x) h.halves.early silent (arrival a)
  rw [h.before] at early
  exact h.taken.slots_same.trans (wave_out early rfl)

theorem WordFrame.moves_after (rerouted : routing = true) (view : x.view = v.channels) (once : WrittenOnce v.channels)
    (hand : v.ringOut = some out) {y : OutFrame} (leaves : w.ringOut = some y) {taken : Vector Sample 8}
    (same : runOf x v = frameRun a v x.view taken) :
    AudioMoves a v v.channels taken out.frame.fields y.frame.fields w := by
  obtain ⟨q, rfl, wave⟩ := h.wave_after rerouted
  rw [← view] at once ⊢
  exact audioMoves_audioAct (x := x) (r := q) (t := w) once hand rfl (wave_out wave rfl) (by rw [leaves]; rfl)
    (fun c _ => by rw [(wavePart_eq_iff.mp wave).2.1]) same

theorem WordFrame.held_after (rerouted : routing = true) (intact : x.slots = some words) {i : SourceId} {k : AudioSlot}
    (present : v.sources[i] = some k) : w.port.held[i] = words[k] := by
  obtain ⟨q, rfl, wave⟩ := h.wave_after rerouted
  rw [(wavePart_eq_iff.mp wave).1, audioAct_held, intact, sourceSamples_intact]
  exact held_sample q.state words present

/-! ### The pages -/

theorem WordFrame.sched (inv : SchedInv a) : SchedInv u ∧ SchedInv v ∧ SchedInv w := by
  have invu := steps_sched (x := x) h.halves.early (arrival a) inv
  rw [h.before] at invu
  have invv := h.taken.schedInv invu
  have invw := steps_sched (x := x) h.halves.late (runStep x (l.foldl (runStep x) (arrival a)) (.act .control))
    (by rw [h.word]; exact invv)
  rw [h.after] at invw
  exact ⟨invu, invv, invw⟩

/-- The word keeps the channels running that are enabled before it and after it. -/
theorem WordFrame.running (inv : SchedInv a) (view : x.view = v.channels) :
    KeepsRunning (fun c => a.channels[c].out ≠ none ∧ x.view[c].out ≠ none) u v :=
  h.taken.keepsRunning (h.sched inv).1 (fun d hd => by rw [h.early.channels]; exact hd.1)
    fun d hd => by rw [← view]; exact hd.2

theorem WordFrame.pages_first (plain : routing = false) (inv : SchedInv a) (view : x.view = v.channels)
    (step : x.step = occupied a) : FramePages x.view a a (audioAct x (arrival a)).state w := by
  obtain ⟨m, e⟩ := h.halves.first plain
  obtain ⟨-, invv, -⟩ := h.sched inv
  have between := h.running inv view
  have control := h.halves.early
  have nodup := h.halves.nodup
  have before := h.before
  rw [e] at control nodup before
  obtain ⟨out, nodup⟩ := List.nodup_cons.mp nodup
  have out' := not_or.mp fun hm => out (List.mem_append.mpr hm)
  have control' : .act .control ∉ m := fun hm => control (List.mem_cons_of_mem _ hm)
  have invAudio : SchedInv (audioAct x (arrival a)).state := inv.of_same (sameSched_audioAct x (arrival a))
  have channels : (audioAct x (arrival a)).state.channels = a.channels := (around_audioAct x (arrival a)).channels
  refine ⟨.refl _ a, audioAct_sched x (arrival a), ?_⟩
  rcases h.halves.once (b := .act .fades) (by simp) with ⟨hl, hn⟩ | ⟨hl, hn⟩
  · rw [e] at hl
    have hm : .act .fades ∈ m := (List.mem_cons.mp hl).resolve_left (by simp)
    have early := steps_pass (x := x) (P := fun c => a.channels[c].out ≠ none ∧ x.view[c].out ≠ none) control'
      (List.nodup_append.mp nodup).1 hm out'.1 (audioAct x (arrival a)) invAudio fun d hd => by rw [channels]; exact hd.1
    have late := steps_keepRunning (x := x) (P := fun c => a.channels[c].out ≠ none ∧ x.view[c].out ≠ none)
      h.halves.late hn out'.2 (runStep x (l.foldl (runStep x) (arrival a)) (.act .control)) (by rw [h.word]; exact invv)
      fun d hd => by rw [h.word, ← view]; exact hd.2
    rw [show (m.foldl (runStep x) (audioAct x (arrival a))).state = u from before, step] at early
    rw [h.after, h.word] at late
    exact (early.keeps between).keeps late
  · have hm : .act .fades ∉ m := fun hm => hl (by rw [e]; exact List.mem_cons_of_mem _ hm)
    have early := steps_keepRunning (x := x) (P := fun c => a.channels[c].out ≠ none ∧ x.view[c].out ≠ none) control' hm
      out'.1 (audioAct x (arrival a)) invAudio fun d hd => by rw [channels]; exact hd.1
    have late := steps_pass (x := x) (P := fun c => a.channels[c].out ≠ none ∧ x.view[c].out ≠ none) h.halves.late
      h.halves.nodups.2 hn out'.2 (runStep x (l.foldl (runStep x) (arrival a)) (.act .control)) (by rw [h.word]; exact invv)
      fun d hd => by rw [h.word, ← view]; exact hd.2
    rw [show (m.foldl (runStep x) (audioAct x (arrival a))).state = u from before] at early
    rw [h.after, h.word, step] at late
    exact early.passes (between.passes late)

theorem WordFrame.pages_after (rerouted : routing = true) (inv : SchedInv a) (view : x.view = v.channels)
    (step : x.step = occupied a) : ∃ q : FrameRun, q.state = v ∧ FramePages x.view a v (audioAct x q).state w := by
  obtain ⟨⟨m, e⟩, -, hl⟩ := h.halves.after rerouted
  obtain ⟨-, invv, -⟩ := h.sched inv
  have between := h.running inv view
  have control := h.halves.late
  have nodup := h.halves.nodup
  have after := h.after
  have here : (.act .fades : FrameStep) ∈ n :=
    ((h.halves.once (b := .act .fades) (by simp)).resolve_left fun p => hl p.1).2
  have silent : .audio ∉ l := fun hm => (List.nodup_append.mp nodup).2.2 _ hm _ (e ▸ List.mem_cons_self) rfl
  have early := steps_keepRunning (x := x) (P := fun c => a.channels[c].out ≠ none ∧ x.view[c].out ≠ none) h.halves.early
    hl silent (arrival a) inv fun d hd => hd.1
  rw [h.before] at early
  have nodup' := (List.nodup_append.mp nodup).2.1
  rw [e] at control here after nodup'
  obtain ⟨out, nodup'⟩ := List.nodup_cons.mp nodup'
  have word := h.word
  generalize runStep x (l.foldl (runStep x) (arrival a)) (.act .control) = q at after word
  refine ⟨q, word, early.trans between, by rw [audioAct_sched, word], ?_⟩
  have channels : (audioAct x q).state.channels = v.channels := by rw [(around_audioAct x q).channels, word]
  have late := steps_pass (x := x) (P := fun c => a.channels[c].out ≠ none ∧ x.view[c].out ≠ none)
    (fun hm => control (List.mem_cons_of_mem _ hm)) nodup' ((List.mem_cons.mp here).resolve_left (by simp)) out
    (audioAct x q) ((word ▸ invv : SchedInv q.state).of_same (sameSched_audioAct x q)) fun d hd => by
      rw [channels, ← view]; exact hd.2
  rw [show (m.foldl (runStep x) (audioAct x q)).state = w from after, step] at late
  exact late

end

/-- The chains of a channel enabled before and after the word. -/
theorem chains_of_pages {found : State} {q : FrameRun} (pages : FramePages x.view a found (audioAct x q).state w)
    (inv : SchedInv a) {taken : Vector Sample 8} (same : runOf x q.state = frameRun a q.state x.view taken) {c : Chan}
    (on : a.channels[c].out ≠ none) (on' : x.view[c].out ≠ none) :
    ChainsAfter a (frameRun a q.state x.view taken c) c w := by
  refine pages.chainsAfter inv on on' ?_ ?_
  · rw [audioAct_active, if_pos (Option.isSome_iff_ne_none.mpr on'), same]
  · rw [audioAct_target, if_pos (Option.isSome_iff_ne_none.mpr on'), same]

end Sys2Proof.Machine
end

section
/-! A frame whose control word is the Ring Port's own: its acts before and after the word, taken together. -/

namespace Sys2Proof.Machine

variable {s t a u v w : State} {x : FrameCtx} {l n : List FrameStep} {routing : Bool}

/-- A frame from `a`, the word taken from `u` to `v` at the Ring Port alone, ends in `w`. -/
structure OwnFrame (x : FrameCtx) (l n : List FrameStep) (a u v w : State) : Prop
    extends WordFrame x false l n none a u v w where
  dressed : Dressed u v

section
variable (h : OwnFrame x l n a u v w)
include h

theorem OwnFrame.early : Around a u := h.toWordFrame.early.around

theorem OwnFrame.late : Around v w := h.toWordFrame.late.around

/-! ### The lanes -/

theorem OwnFrame.track : trackPart w = trackPart (tracked a) ∧
    (trackPart u = trackPart a ∨ trackPart u = trackPart w) := by
  have same : trackPart v = trackPart u := by
    obtain ⟨asm, sender, lost, roll, answer, address, twin, e⟩ := h.dressed
    rw [e]
    rfl
  rcases h.tracks with ⟨early, late⟩ | ⟨early, late⟩
  · exact ⟨late.trans (same.trans early), .inr (late.trans same).symm⟩
  · exact ⟨late.trans (trackPart_tracked (same.trans early)), .inl early⟩

theorem OwnFrame.drop : LineSampled a w ∧ (dropPart u = dropPart a ∨ dropPart u = dropPart w) := by
  have same : dropPart v = dropPart u := by
    obtain ⟨asm, sender, lost, roll, answer, address, twin, e⟩ := h.dressed
    rw [e]
    rfl
  rcases h.drops with ⟨sampled, stands⟩ | ⟨stands, sampled⟩
  · exact ⟨sampled.congr rfl (stands.trans same), .inr (stands.trans same).symm⟩
  · exact ⟨sampled.congr (stands.symm.trans same.symm) rfl, .inl stands⟩

/-- The targets of a lane where its tick falls are those the frame found or those it leaves. -/
theorem OwnFrame.targets (k : Lane) : u.gain.targets.ofLane k = a.gain.targets.ofLane k ∨
    u.gain.targets.ofLane k = w.gain.targets.ofLane k := by
  cases k with
  | user => exact .inl (congrArg Vector.toList h.early.targets.1)
  | mute => exact .inl (congrArg Vector.toList h.early.targets.2)
  | speed =>
    exact h.track.2.imp (fun e => congrArg Vector.toList (trackPart_eq_iff.mp e).2.2.1)
      fun e => congrArg Vector.toList (trackPart_eq_iff.mp e).2.2.1
  | duck => exact h.drop.2.imp (fun e => ofLane_duck (dropPart_eq_iff.mp e).2.1) fun e => ofLane_duck (dropPart_eq_iff.mp e).2.1

theorem OwnFrame.lanes (k : Lane) : LaneCounts k a a.gain.targets w ∨ LaneCounts k a w.gain.targets w := by
  obtain ⟨lane, targets⟩ : lanePart k v = lanePart k u ∧ v.gain.targets = u.gain.targets := by
    obtain ⟨asm, sender, lost, roll, answer, address, twin, e⟩ := h.dressed
    rw [e]
    exact ⟨rfl, rfl⟩
  rcases h.toWordFrame.lanes k with ⟨early, settings, currents⟩ | ⟨⟨settings, currents⟩, late⟩
  · have end_ : lanePart k w = lanePart k u := (Prod.ext settings currents).trans lane
    rcases early with early | early
    · exact .inl (early.congr rfl end_ rfl)
    · exact (h.targets k).imp (fun e => early.congr rfl end_ e.symm) fun e => early.congr rfl end_ e.symm
  · have start : lanePart k a = lanePart k v := (Prod.ext settings currents).symm.trans lane.symm
    rcases late with late | late
    · exact (h.targets k).imp (fun e => late.congr start rfl (by rw [targets, e])) fun e => late.congr start rfl (by rw [targets, e])
    · exact .inr (late.congr start rfl rfl)

end

end Sys2Proof.Machine
end

section
/-! The same frames: their signal, meters, request bit, pages and the frame that leaves. -/

namespace Sys2Proof.Machine

variable {s t a u v w : State} {x : FrameCtx} {l n : List FrameStep} {routing : Bool}

theorem anyKind_iff (p : NoticeSet) : anyKind p = true ↔ ∃ k, hasKind p k = true := by
  unfold anyKind
  simp only [Bool.or_eq_true]
  constructor
  · rintro (((((h | h) | h) | h) | h) | h)
    exacts [⟨.relock, h⟩, ⟨.speedLost, h⟩, ⟨.ctrlLost, h⟩, ⟨.clip, h⟩, ⟨.pageSettled, h⟩, ⟨.duckLine, h⟩]
  · rintro ⟨k, hk⟩
    cases k <;> simp_all [hasKind]

theorem Around.anyKind (h : Around s t) (hs : anyKind s.notices.pending = true) : anyKind t.notices.pending = true := by
  rw [anyKind_iff] at hs ⊢
  obtain ⟨k, hk⟩ := hs
  exact ⟨k, h.kinds k hk⟩

section
variable (h : OwnFrame x l n a u v w)
include h

/-- The audio comes first. -/
theorem OwnFrame.first : ∃ m, l = .audio :: m ∧ .act .control ∉ m ∧ .audio ∉ m ∧ m.Nodup ∧ .audio ∉ n ∧
    (m.foldl (runStep x) (audioAct x (arrival a))).state = u := by
  obtain ⟨m, e⟩ := h.halves.first rfl
  have early := h.halves.early
  have nodup := h.halves.nodup
  have before := h.before
  rw [e] at early nodup before
  rw [List.cons_append, List.nodup_cons, List.mem_append, not_or] at nodup
  obtain ⟨⟨out, out'⟩, nodup⟩ := nodup
  exact ⟨m, e, fun hm => early (List.mem_cons_of_mem _ hm), out, (List.nodup_append.mp nodup).1, out', before⟩

theorem OwnFrame.wave : wavePart w = wavePart (audioAct x (arrival a)).state := by
  obtain ⟨early, late⟩ := h.wave_first rfl
  exact late.trans (h.dressed.wave.trans early)

theorem OwnFrame.meters : Metered (runOf x a) x.view a w := by
  have dress : gaugePart v = gaugePart u := by
    obtain ⟨asm, sender, lost, roll, answer, address, twin, e⟩ := h.dressed
    rw [e]
    rfl
  rcases h.hears_first rfl with ⟨early, late⟩ | ⟨early, late⟩
  · exact early.congr rfl (late.trans dress)
  · exact late.congr (dress.trans early).symm rfl

/-- The request bit is set where a notice is pending as its act finds the state (R163). -/
theorem OwnFrame.request (keeps : u.notices.pending.ctrlLost = true → v.notices.pending.ctrlLost = true) :
    ∃ y : State, (anyKind a.notices.pending = true → anyKind y.notices.pending = true) ∧
      (anyKind y.notices.pending = true → anyKind w.notices.pending = true) ∧
      servicePart w = if anyKind y.notices.pending then (servicePart a).map (· ||| 128#8) else servicePart a := by
  have dress (hu : anyKind u.notices.pending = true) : anyKind v.notices.pending = true := by
    rw [anyKind_iff] at hu ⊢
    obtain ⟨k, hk⟩ := hu
    refine ⟨k, ?_⟩
    obtain ⟨asm, sender, lost, roll, answer, address, twin, e⟩ := h.dressed
    rw [e] at keeps ⊢
    cases k with
    | ctrlLost => exact keeps hk
    | relock | speedLost | clip | pageSettled | duckLine => exact hk
  obtain ⟨nl, nn⟩ := h.halves.nodups
  rcases h.halves.once (b := .act .request) (by simp) with ⟨hl, hn⟩ | ⟨hl, hn⟩
  · obtain ⟨y, before, after, service⟩ := half_request (x := x) h.halves.early nl hl (arrival a)
    have late := half_service_stands (x := x) h.halves.late hn (runStep x (l.foldl (runStep x) (arrival a)) (.act .control))
    rw [h.before] at after service
    rw [h.after, h.word] at late
    exact ⟨y, before.anyKind, fun hy => h.late.anyKind (dress (after.anyKind hy)),
      late.trans (h.dressed.service.trans service)⟩
  · obtain ⟨y, before, after, service⟩ := half_request (x := x) h.halves.late nn hn
      (runStep x (l.foldl (runStep x) (arrival a)) (.act .control))
    have early := half_service_stands (x := x) h.halves.early hl (arrival a)
    rw [h.before] at early
    rw [h.after, h.word] at service
    rw [h.after] at after
    rw [h.word] at before
    refine ⟨y, fun ha => before.anyKind (dress (h.early.anyKind ha)), after.anyKind, ?_⟩
    rw [service, h.dressed.service, early]
    rfl

theorem OwnFrame.pages (inv : SchedInv a) (view : x.view = a.channels) (step : x.step = occupied a) :
    SchedInv w ∧ FramePages a.channels a a (audioAct x (arrival a)).state w := by
  have channels : v.channels = a.channels := h.dressed.routing.1.trans h.early.channels
  have pages := h.pages_first rfl inv (view.trans channels.symm) step
  rw [view] at pages
  exact ⟨(h.sched inv).2.2, pages⟩

end

end Sys2Proof.Machine
end

section
/-! How such a frame ends: the frame that leaves, and what the answer had deferred (R147, R154, R157, R159). -/

namespace Sys2Proof.Machine

variable {s t a u v w : State} {x : FrameCtx} {l n : List FrameStep} {control : State → Turn} {word : Word32}

/-! ### The run of the frame -/

/-- The state the word leaves, once what the answer had deferred has taken effect. -/
def wordDone (asm : Assembler) (lost : Bool) (mark : State → BitVec 8 → BitVec 8) (word : Word32) (x : Sender) (u : State) :
    Turn :=
  applyDeferred (x.deferredIn word) (afterWord asm (x.after word) lost (mark u) (fun old => x.written word old) u)

/-- The control act of a frame from `a` is the Ring Port's own, on every state its acts can leave before the word. -/
def OwnWord (control : State → Turn) (word : Word32) (asm : Assembler) (lost : Bool) (mark : State → BitVec 8 → BitVec 8)
    (a : State) : Prop :=
  ∀ u, Around a u → controlAct control u = wordDone asm lost mark word a.port.sender u

/-- What the acts of a frame read. -/
def ctxOf (control : State → Turn) (slots : Option (Vector Sample 32)) (a : State) : FrameCtx :=
  ⟨control, (controlAct control a).state.channels, a.ramp.currents, occupied a, slots⟩

/-- The state of a frame as it is taken. -/
def arrived (out : OutFrame) (duckPin : Bool) (s : State) : State := { s with pins.duck := duckPin, ringOut := some out }

theorem samplePath_eq (control : State → Turn) (out : OutFrame) (slots : Option (Vector Sample 32)) (duckPin : Bool)
    (order : FrameOrder) (s : State) : samplePath control out slots duckPin order s =
      ({ state := mapOut recheck (runActs (ctxOf control slots (arrived out duckPin s)) order
          (changesRouting (arrived out duckPin s) (controlAct control (arrived out duckPin s)).state)
          (arrived out duckPin s)).state,
         reset := (runActs (ctxOf control slots (arrived out duckPin s)) order
          (changesRouting (arrived out duckPin s) (controlAct control (arrived out duckPin s)).state)
          (arrived out duckPin s)).reset } : Turn).finish := rfl

theorem changesRouting_same (channels : t.channels = s.channels) (sources : t.sources = s.sources) :
    changesRouting s t = false := by
  unfold changesRouting enabled
  rw [channels, sources]
  simp

theorem wordDone_dressed (asm lost mark word x) (u : State) : Dressed u (wordDone asm lost mark word x u).state := by
  obtain ⟨address, twin, e⟩ := applyDeferred_eq (x.deferredIn word)
    (afterWord asm (x.after word) lost (mark u) (fun old => x.written word old) u)
  exact ⟨_, _, _, _, _, address, twin, e⟩

theorem wordDone_reset (asm lost mark word x) (u : State) :
    (wordDone asm lost mark word x u).reset = (x.deferredIn word == .deviceReset) := by
  unfold wordDone
  cases x.deferredIn word <;> rfl

/-- What is deferred takes effect only as the answer leaves. -/
theorem deferredIn_quiet {x : Sender} (h : x.deferredIn word ≠ .nothing) : x.after word = .quiet := by
  cases x with
  | quiet => rfl
  | answering y rest d =>
    cases rest with
    | nil => rfl
    | cons v vs =>
      by_cases clear : word.extractLsb' 30 2 = 3
      · exact after_clear clear _
      · exact absurd (if_neg (by rintro (e | e); exacts [clear e, by cases e])) h

variable {asm : Assembler} {lost : Bool} {mark : State → BitVec 8 → BitVec 8}

theorem ownFrame_runActs (hw : OwnWord control word asm lost mark a) (slots : Option (Vector Sample 32))
    (order : FrameOrder) : ∃ l n u v w, OwnFrame (ctxOf control slots a) l n a u v w ∧
      v = (wordDone asm lost mark word a.port.sender u).state ∧ (ctxOf control slots a).view = a.channels ∧
      runActs (ctxOf control slots a) order (changesRouting a (controlAct control a).state) a =
        { state := w, reset := a.port.sender.deferredIn word == .deviceReset,
          runs := (runActs (ctxOf control slots a) order (changesRouting a (controlAct control a).state) a).runs } := by
  have first := hw a (.refl a)
  obtain ⟨channels, sources⟩ := (wordDone_dressed asm lost mark word a.port.sender a).routing
  rw [← first] at channels sources
  rw [changesRouting_same channels sources]
  obtain ⟨l, n, halves, run⟩ := runActs_halves (ctxOf control slots a) order false a
  have own := hw _ (around_steps (ctxOf control slots a) l halves.early (arrival a))
  have none : (l.foldl (runStep (ctxOf control slots a)) (arrival a)).reset = false := half_reset halves.early (arrival a)
  have taken : (runStep (ctxOf control slots a) (l.foldl (runStep (ctxOf control slots a)) (arrival a)) (.act .control)).state =
      (wordDone asm lost mark word a.port.sender (l.foldl (runStep (ctxOf control slots a)) (arrival a)).state).state :=
    congrArg Turn.state own
  have reset : (runStep (ctxOf control slots a) (l.foldl (runStep (ctxOf control slots a)) (arrival a)) (.act .control)).reset =
      (a.port.sender.deferredIn word == .deviceReset) := by
    show ((l.foldl (runStep (ctxOf control slots a)) (arrival a)).reset || (controlAct control _).reset) = _
    rw [none, own, wordDone_reset, Bool.false_or]
  have dressed := wordDone_dressed asm lost mark word a.port.sender (l.foldl (runStep (ctxOf control slots a)) (arrival a)).state
  rw [← taken] at dressed
  refine ⟨l, n, _, _, _, ⟨⟨halves, rfl, rfl, rfl, dressed.takes_none⟩, dressed⟩, taken, channels, ?_⟩
  · rw [run, ← reset, ← half_reset (x := ctxOf control slots a) halves.late]

/-! ### The end of the frame -/

/-- The frame's end before what the answer had deferred takes effect. -/
def restored (a w : State) : State :=
  { mapOut recheck w with port.address := a.port.address, port.twin := a.port.twin }

theorem OwnFrame.finish (h : OwnFrame x l n a u v w) (hv : v = (wordDone asm lost mark word a.port.sender u).state) :
    ({ state := mapOut recheck w, reset := a.port.sender.deferredIn word == .deviceReset } : Turn).finish =
      (restored a w).once (a.port.sender.deferredIn word) := by
  have address := h.late.address
  have sender := h.late.sender
  have early := h.early.address
  have own : v.port.sender = a.port.sender.after word ∧ (v.port.address, v.port.twin) =
      match a.port.sender.deferredIn word with
      | .newAddress n tw => (n, tw)
      | .nothing => (a.port.address, a.port.twin)
      | .deviceReset => (a.port.address, a.port.twin) := by
    rw [hv, ← early.1, ← early.2]
    unfold wordDone
    cases a.port.sender.deferredIn word <;> exact ⟨rfl, rfl⟩
  have quiet : a.port.sender.deferredIn word ≠ .nothing → w.port.sender = .quiet :=
    fun ne => sender.trans (own.1.trans (deferredIn_quiet ne))
  obtain ⟨-, own⟩ := own
  unfold Turn.finish restored State.once
  cases hd : a.port.sender.deferredIn word with
  | nothing =>
    rw [hd] at own
    obtain ⟨ha, ht⟩ := Prod.mk.inj own
    rw [← ha, ← ht, ← address.1, ← address.2]
    rfl
  | newAddress n tw =>
    rw [hd] at own
    obtain ⟨ha, ht⟩ := Prod.mk.inj own
    rw [← ha, ← ht, ← address.1, ← address.2]
    rfl
  | deviceReset =>
    rw [hd] at own quiet
    obtain ⟨ha, ht⟩ := Prod.mk.inj own
    have kept : keptAddress (mapOut recheck w).port = (a.port.address, a.port.twin) := by
      unfold keptAddress
      rw [mapOut_port, quiet (by simp)]
      exact Prod.ext (address.1.trans ha) (address.2.trans ht)
    unfold deviceReset
    rw [if_pos (beq_self_eq_true _), kept]

theorem wave_slots (g : FrameFields → Vector Sample 32) (o : Option OutFrame) :
    (o.map (onFields fun f => { f with slots := g f })).map (fun o => (o.frame.fields.slots, o.frame.check)) =
      o.map fun o => (g o.frame.fields, o.frame.check) := by
  rw [Option.map_map]
  rfl

/-- The frame that leaves. -/
theorem OwnFrame.leaves (h : OwnFrame x l n a u v w) (hv : v = (wordDone asm lost mark word a.port.sender u).state)
    {out : OutFrame} (hand : a.ringOut = some out) : ∃ y, w.ringOut = some y ∧ y.judged = out.judged ∧
      y.frame.sync = out.frame.sync ∧ y.frame.check = out.frame.check ∧
      y.frame.fields.control = out.frame.fields.control ∧
      y.frame.fields.answer = a.port.sender.written word out.frame.fields.answer ∧
      y.frame.fields.roll = mark u out.frame.fields.roll ∧
      servicePart w = some y.frame.fields.service ∧
      (∀ i < 7, y.frame.fields.service.getLsbD i = out.frame.fields.service.getLsbD i) := by
  obtain ⟨x', hx', judged, sync, word', answer, roll, service⟩ := h.early.frame out hand
  have vout : v.ringOut = some (onFields (fun f =>
      { f with roll := mark u f.roll, answer := a.port.sender.written word f.answer }) x') := by
    rw [hv]
    unfold wordDone
    obtain ⟨address, twin, e⟩ := applyDeferred_eq (a.port.sender.deferredIn word)
      (afterWord asm (a.port.sender.after word) lost (mark u) (fun old => a.port.sender.written word old) u)
    rw [e]
    unfold afterWord
    dsimp only
    rw [hx', Option.map_some]
  obtain ⟨y, hy, judged', sync', word'', answer', roll', service'⟩ := h.late.frame _ vout
  have check : y.frame.check = out.frame.check := by
    have same := (wavePart_eq_iff.mp h.wave).2.2
    have hand' : (arrival a).state.ringOut = some out := hand
    rw [audioAct_out, wave_slots, hy, hand'] at same
    exact (Prod.mk.inj (Option.some.inj same)).2
  have bits {p q : BitVec 8} (e : q = p ∨ q = p ||| 128#8) (i : Nat) (hi : i < 7) : q.getLsbD i = p.getLsbD i := by
    rcases e with rfl | rfl
    · rfl
    · have : (128#8).getLsbD i = false := by interval_cases i <;> rfl
      rw [BitVec.getLsbD_or, this, Bool.or_false]
  refine ⟨y, hy, judged'.trans judged, sync'.trans sync, check, word''.trans word', ?_, ?_, ?_, fun i hi => ?_⟩
  · rw [answer', ← answer]; rfl
  · rw [roll', ← roll]; rfl
  · unfold servicePart; rw [hy]; rfl
  · exact (bits service' i hi).trans (bits service i hi)

end Sys2Proof.Machine
end

section
/-! The chains and the meters such a frame leaves, and its audio (R14, R30 to R32, R124, R167). -/

namespace Sys2Proof.Machine

variable {s t a u v w : State} {x : FrameCtx} {l n m : List FrameStep}

/-! ### Runs of acts in which the staleness counter does not run out -/

/-- The staleness counter does not run out at its next frame. -/
def NoExpiry (s : State) : Prop := s.speed.fresh = false ∨ s.speed.counter ≠ 1

theorem NoExpiry.congr (h : NoExpiry s) (e : t.speed = s.speed) : NoExpiry t := by
  unfold NoExpiry at *
  rwa [e]

theorem countStaleness_still (h : NoExpiry s) : ∃ r, countStaleness s = { s with speed := r } := by
  unfold countStaleness
  split
  · rename_i due
    rw [if_neg fun e => h.elim (fun off => by rw [off] at due; exact absurd due.1 (by decide)) (· e)]
    exact ⟨_, rfl⟩
  · exact ⟨s.speed, rfl⟩

/-- A relation that each step of a run keeps, the staleness counter's where it does not run out. -/
theorem steps_related {R : State → State → Prop} {I : State → Prop} (refl : ∀ s, R s s)
    (trans : ∀ s t u, R s t → R t u → R s u) (hc : .act .control ∉ m) (hn : m.Nodup)
    (keep : ∀ c ∈ m, ∀ r : FrameRun, I r.state → (c = .act .staleness → NoExpiry r.state) →
      I (runStep x r c).state ∧ R r.state (runStep x r c).state) : ∀ r : FrameRun, I r.state →
    (.act .staleness ∈ m → NoExpiry r.state) →
    I (m.foldl (runStep x) r).state ∧ R r.state (m.foldl (runStep x) r).state := by
  induction m with
  | nil => exact fun r hI _ => ⟨hI, refl _⟩
  | cons c m ih =>
    obtain ⟨ne, hc'⟩ := not_or.mp fun h => hc (List.mem_cons.mpr h)
    obtain ⟨out, hn'⟩ := List.nodup_cons.mp hn
    intro r hI calm
    obtain ⟨hI', first⟩ := keep c List.mem_cons_self r hI fun e => calm (by rw [e]; exact List.mem_cons_self)
    obtain ⟨hI'', rest⟩ := ih hc' hn' (fun d hd => keep d (List.mem_cons_of_mem _ hd)) _ hI' fun hs => by
      have other : c ≠ .act .staleness := fun e => out (e ▸ hs)
      exact (calm (List.mem_cons_of_mem _ hs)).congr (trackPart_eq_iff.mp (track_keeps (Ne.symm ne) other r)).1
    exact ⟨hI'', trans _ _ _ first rest⟩

/-! ### Disabled channels -/

theorem SchedAct.target_resting (h : SchedAct s t) (laws : SchedLaws s) {c : Chan} (off : s.channels[c].out = none)
    (rest : Rests s c) : t.equaliser.target[c] = s.equaliser.target[c] := by
  cases h with
  | start d q i queue rest new free running left =>
    have ne : c ≠ d := fun e => running (e ▸ off)
    exact (startFade_same (s := setQueue queue s) ne _ q i).2
  | switch d q rest => rw [instantSwitch_target]; rfl
  | stay d rest => rfl
  | join d p q steady new running => rfl
  | wait d p q r waits new => rfl
  | redirect i f n holds new => rfl
  | carry i f holds =>
    rw [carryOver_target, if_neg]
    rintro rfl
    rw [Rests, laws.occupied i f holds] at rest
    cases rest

theorem SchedActs.target_resting (h : SchedActs s t) (laws : SchedLaws s) {c : Chan} (off : s.channels[c].out = none)
    (rest : Rests s c) : t.equaliser.target[c] = s.equaliser.target[c] := by
  induction h with
  | refl => rfl
  | tail b a ih =>
    have out : _ = _ := (SchedActs.onlyPages b).channels
    exact (a.target_resting (SchedActs.laws b laws) (by rw [out]; exact off) (SchedActs.rests b c off rest).2).trans ih

theorem fadesAct_resting (h : SchedInv s) (view : View) (step : Stepping) {c : Chan} (off : s.channels[c].out = none)
    (view_off : view[c].out = none) : SameChains c s (fadesAct view step s) := by
  have still := (fadesTaken_fadesAct h view step).still c fun j f _ own st => st.2 (by rw [← view_off]; exact congrArg (fun d : Chan => view[d].out) own)
  obtain ⟨a, b, e⟩ := fadesAct_eq view step s
  have sound := h.sound.stepSlots view step
  obtain ⟨-, acts, -⟩ := completions_sound (List.finRange 8) sound
  refine ⟨still.active, ?_⟩
  rw [e, equaliser_resettleZones]
  exact SchedActs.target_resting acts sound.laws off (h.sound.resting c off)

/-- An act of a frame in which the staleness counter does not run out leaves the chains of a disabled channel. -/
theorem step_resting {c : Chan} (view : x.view[c].out = none) (b : FrameStep) (hb : b ≠ .act .control) (r : FrameRun)
    (h : SchedInv r.state ∧ r.state.channels[c].out = none) (calm : b = .act .staleness → NoExpiry r.state) :
    (SchedInv (runStep x r b).state ∧ (runStep x r b).state.channels[c].out = none) ∧
      SameChains c r.state (runStep x r b).state := by
  obtain ⟨inv, off⟩ := h
  refine ⟨⟨step_sched inv hb, by rw [(around_step x r hb).channels]; exact off⟩, ?_⟩
  have same {k : FrameAct} (hk : k = .request ∨ k = .meters ∨ (∃ l, k = .count l) ∨ k = .duckLine) :
      SameChains c r.state (runStep x r (.act k)).state :=
    sameChains_of_equaliser (step_samePages hk r).equaliser c
  cases b with
  | audio =>
    refine ⟨(audioAct_active x r c).trans ?_, (audioAct_target x r c).trans ?_⟩
    · rw [if_neg (by rw [view]; decide)]
    · rw [if_neg (by rw [view]; decide)]
  | act k =>
    cases k with
    | control => exact absurd rfl hb
    | request => exact same (.inl rfl)
    | meters => exact same (.inr (.inl rfl))
    | fades => exact fadesAct_resting inv _ _ off view
    | count l => exact same (.inr (.inr (.inl ⟨l, rfl⟩)))
    | staleness =>
      obtain ⟨y, e⟩ := countStaleness_still (calm rfl)
      show SameChains c r.state (countStaleness r.state)
      rw [e]
      exact ⟨rfl, rfl⟩
    | duckLine => exact same (.inr (.inr (.inr rfl)))

section
variable (h : OwnFrame x l n a u v w)
include h

/-- The staleness counter finds the speed record the frame found. -/
theorem OwnFrame.calm (calm : NoExpiry a) : .act .staleness ∈ n → NoExpiry v := by
  intro hn
  have hl : .act .staleness ∉ l := (h.halves.once (b := .act .staleness) (by simp)).elim (fun e => absurd hn e.2) And.left
  have early := half_track (x := x) h.halves.early h.halves.nodups.1 (arrival a)
  rw [if_neg hl, h.before] at early
  have dress : v.speed = u.speed := by
    obtain ⟨asm, sender, lost, roll, answer, address, twin, e⟩ := h.dressed
    rw [e]
    rfl
  exact calm.congr (dress.trans (trackPart_eq_iff.mp early).1)

theorem OwnFrame.resting (inv : SchedInv a) (calm : NoExpiry a) {c : Chan} (off : a.channels[c].out = none)
    (view : x.view[c].out = none) : SameChains c a w := by
  have trans (s t u : State) (p : SameChains c s t) (q : SameChains c t u) : SameChains c s u :=
    ⟨q.1.trans p.1, q.2.trans p.2⟩
  obtain ⟨nl, nn⟩ := h.halves.nodups
  obtain ⟨⟨invu, offu⟩, early⟩ := steps_related (x := x) (R := SameChains c) (I := fun s => SchedInv s ∧ s.channels[c].out = none) (fun _ => ⟨rfl, rfl⟩) trans h.halves.early nl
    (fun b hb r => step_resting view b (ne_control h.halves.early hb) r) (arrival a) ⟨inv, off⟩ fun _ => calm
  rw [h.before] at invu offu early
  have invv : SchedInv v := invu.of_same h.dressed.samePages.sameSched
  have offv : v.channels[c].out = none := by rw [h.dressed.routing.1]; exact offu
  obtain ⟨-, late⟩ := steps_related (x := x) (R := SameChains c) (I := fun s => SchedInv s ∧ s.channels[c].out = none) (fun _ => ⟨rfl, rfl⟩) trans h.halves.late nn
    (fun b hb r => step_resting view b (ne_control h.halves.late hb) r)
    (runStep x (l.foldl (runStep x) (arrival a)) (.act .control)) (by rw [h.word]; exact ⟨invv, offv⟩)
    (by rw [h.word]; exact h.calm calm)
  rw [h.after, h.word] at late
  exact trans _ _ _ (trans _ _ _ early (sameChains_of_equaliser h.dressed.samePages.equaliser c)) late

/-- What the frame leaves of the meters and of the chains. -/
theorem OwnFrame.channelsAfter (inv : SchedInv a) (view : x.view = a.channels) (currents : x.currents = a.ramp.currents)
    (step : x.step = occupied a) {taken : Vector Sample 8} (samples : sourceSamples a x.slots = taken) :
    ChannelsAfter a taken w := by
  have run : runOf x a = frameRun a a a.channels taken := by rw [runOf_eq currents step samples, view]
  obtain ⟨-, pages⟩ := h.pages inv view step
  refine ⟨?_, fun c off => ?_, fun calm c => ⟨fun off => ?_, fun on => ?_⟩⟩
  · have meters := h.meters
    rw [run, view] at meters
    exact meters
  · have delays := (wavePart_eq_iff.mp h.wave).2.1
    rw [delays, audioAct_delays, view, if_neg (by rw [off]; decide)]
    rfl
  · exact h.resting inv calm off (by rw [view]; exact off)
  · refine pages.chainsAfter inv on on ?_ ?_
    · rw [audioAct_active, view, if_pos (Option.isSome_iff_ne_none.mpr on)]
      exact congrArg (fun f => (f c).active) run
    · rw [audioAct_target, view, if_pos (Option.isSome_iff_ne_none.mpr on)]
      exact congrArg (fun f => (f c).target) run

/-- The slots, delays and held samples it leaves. -/
theorem OwnFrame.audioMoves (once : WrittenOnce a.channels) (view : x.view = a.channels)
    (currents : x.currents = a.ramp.currents) (step : x.step = occupied a) {taken : Vector Sample 8}
    (samples : sourceSamples a x.slots = taken) {out y : OutFrame} (hand : a.ringOut = some out) (leaves : w.ringOut = some y) :
    AudioMoves a a a.channels taken out.frame.fields y.frame.fields w ∧ w.port.held = heldAfter a taken := by
  obtain ⟨held, delays, slots⟩ := wavePart_eq_iff.mp h.wave
  have run : runOf x a = frameRun a a x.view taken := runOf_eq currents step samples
  constructor
  · rw [← view] at once ⊢
    refine audioMoves_audioAct (x := x) (r := arrival a) (t := w) once hand rfl ?_ (by rw [leaves]; rfl)
      (fun c _ => by rw [delays]) run
    have first := congrArg (Option.map Prod.fst) slots
    rw [Option.map_map, Option.map_map] at first
    exact first
  · rw [held, audioAct_held, ← samples]
    rfl

end

end Sys2Proof.Machine
end

section
/-! A frame whose control word completes no message for an owner, and a damaged frame, as they leave (R31, R146, R147, R151,
R157, R163, R166). -/

namespace Sys2Proof.Machine

variable {s t a u v w : State} {x : FrameCtx} {l n m : List FrameStep} {word : Word32}
variable {asm : Assembler} {lost : Bool} {mark : State → BitVec 8 → BitVec 8}

/-! ### From the frame in hand to the state it found -/

/-- The state a frame of the LOCKED part acts on: no miss counted, the pin's level taken, the frame in hand. -/
def inHand (out : OutFrame) (duck : Bool) (s : State) : State := arrived out duck { s with port.misses := 0 }

theorem frameRun_inHand (out : OutFrame) (duck : Bool) (s : State) (view : View) (taken : Vector Sample 8) :
    frameRun (inHand out duck s) (inHand out duck s) view taken = frameRun s s view taken := by
  funext c
  exact frameRun_congr rfl rfl rfl rfl view taken c

theorem channelsAfter_inHand {out : OutFrame} {duck : Bool} {taken : Vector Sample 8}
    (h : ChannelsAfter (inHand out duck s) taken w) : ChannelsAfter s taken (restored (inHand out duck s) w) := by
  obtain ⟨meters, disabled, chains⟩ := h
  rw [frameRun_inHand] at meters chains
  refine ⟨meters.congr rfl rfl, disabled, fun calm c => ?_⟩
  obtain ⟨off, on⟩ := chains calm c
  exact ⟨off, fun h => ⟨(on h).active, (on h).arrived, (on h).target⟩⟩

theorem audioMoves_inHand {out : OutFrame} {duck : Bool} {taken : Vector Sample 8} {f o : FrameFields}
    (h : AudioMoves (inHand out duck s) (inHand out duck s) s.channels taken f o w) :
    AudioMoves s s s.channels taken f o (restored (inHand out duck s) w) := by
  obtain ⟨written, passed, delays⟩ := h
  rw [frameRun_inHand] at delays
  exact ⟨written, passed, delays⟩

/-- What the frame leaves as it was, but for the address, which the answer's end sets. -/
structure Untouched (s : State) (duck : Bool) (t : State) : Prop where
  relock : t.notices.pending.relock = s.notices.pending.relock
  lock : t.port.lock = s.port.lock ∧ t.port.misses = 0
  address : t.port.address = s.port.address ∧ t.port.twin = s.port.twin
  sources : t.sources = s.sources
  channels : t.channels = s.channels
  programs : t.equaliser.programs = s.equaliser.programs
  gain : t.gain.cabin = s.gain.cabin ∧ t.gain.mutes = s.gain.mutes
  pins : t.pins = { s.pins with duck := duck }
  notices : t.notices.enabled = s.notices.enabled ∧ t.notices.roll = s.notices.roll
  queue : t.pending = s.pending

/-- Neither of the two kinds that the acts do not record changes. -/
theorem Around.kind_same (h : Around s t) {k : NoticeKind} (hk : k = .relock ∨ k = .ctrlLost) :
    hasKind t.notices.pending k = hasKind s.notices.pending k := by
  rw [Bool.eq_iff_iff]
  refine ⟨fun ht => (h.added k ht).resolve_right ?_, h.kinds k⟩
  rintro ⟨-, relock, lost⟩
  exact hk.elim relock lost

theorem OwnFrame.untouched {out : OutFrame} {duck : Bool} (h : OwnFrame x l n (inHand out duck s) u v w)
    (hv : v = (wordDone asm lost mark word (inHand out duck s).port.sender u).state) :
    Untouched s duck (restored (inHand out duck s) w) ∧
      w.port.assembler = asm ∧ w.port.sender = s.port.sender.after word ∧ w.notices.pending.ctrlLost = lost := by
  have early := h.early
  have late := h.late
  have relock := (late.kind_same (k := .relock) (.inl rfl))
  have relock' := (early.kind_same (k := .relock) (.inl rfl))
  have ctrl := (late.kind_same (k := .ctrlLost) (.inr rfl))
  obtain ⟨address, twin, e⟩ := applyDeferred_eq ((inHand out duck s).port.sender.deferredIn word)
    (afterWord asm ((inHand out duck s).port.sender.after word) lost (mark u)
      (fun old => (inHand out duck s).port.sender.written word old) u)
  have hv := hv.trans e
  subst hv
  refine ⟨⟨relock.trans relock', ⟨late.lock.1.trans early.lock.1, late.lock.2.trans early.lock.2⟩, ⟨rfl, rfl⟩,
    late.sources.trans early.sources, late.channels.trans early.channels, late.programs.trans early.programs,
    ⟨late.cabin.trans early.cabin, late.mutes.trans early.mutes⟩,
    late.pins.trans early.pins,
    ⟨late.notices.1.trans early.notices.1, late.notices.2.trans early.notices.2⟩, late.queue.trans early.queue⟩,
    late.assembler, late.sender, ctrl⟩

end Sys2Proof.Machine
end

section
/-! What the frame leaves, whole; and the damaged frame (R28, R146, R147, R151, R157). -/

namespace Sys2Proof.Machine

variable {s t a u v w : State} {control : State → Turn} {word : Word32} {asm : Assembler} {lost : Bool}
variable {mark : State → BitVec 8 → BitVec 8} {out y : OutFrame} {duck : Bool} {taken : Vector Sample 8}

/-- A frame that takes its word at the Ring Port alone, begun in `s` with `out` in hand, ends in `t`: its word was taken in
`u`, and it leaves as `y`, its CHECK not yet renewed. -/
structure OwnEnd (s : State) (duck : Bool) (out : OutFrame) (taken : Vector Sample 8) (word : Word32) (asm : Assembler)
    (lost : Bool) (mark : State → BitVec 8 → BitVec 8) (u : State) (y : OutFrame) (t : State) : Prop where
  around : Around (inHand out duck s) u
  hand : t.ringOut = some (recheck y)
  judged : y.judged = out.judged
  sync : y.frame.sync = out.frame.sync
  check : y.frame.check = out.frame.check
  control : y.frame.fields.control = out.frame.fields.control
  answer : y.frame.fields.answer = s.port.sender.written word out.frame.fields.answer
  roll : y.frame.fields.roll = mark u out.frame.fields.roll
  marked : anyKind { u.notices.pending with ctrlLost := lost } = true → anyKind t.notices.pending = true
  request : (s.notices.pending.ctrlLost = true → lost = true) → ∃ z : State,
    (anyKind s.notices.pending = true → anyKind z.notices.pending = true) ∧
    (anyKind z.notices.pending = true → anyKind t.notices.pending = true) ∧
    y.frame.fields.service =
      if anyKind z.notices.pending then out.frame.fields.service ||| 128#8 else out.frame.fields.service
  audio : AudioMoves s s s.channels taken out.frame.fields y.frame.fields t
  after : ChannelsAfter s taken t
  held : t.port.held = heldAfter s taken
  untouched : Untouched s duck t
  assembler : t.port.assembler = asm
  sender : t.port.sender = s.port.sender.after word
  ctrlLost : t.notices.pending.ctrlLost = lost

theorem Around.anyKind_ctrlLost (h : Around s t) : t.notices.pending.ctrlLost = s.notices.pending.ctrlLost :=
  h.kind_same (k := .ctrlLost) (.inr rfl)

/-- A frame of a LOCKED part whose word is the Ring Port's own: its acts, and how it ends. -/
theorem samplePath_ownFrame (hw : OwnWord control word asm lost mark (inHand out duck s))
    (slots : Option (Vector Sample 32)) (order : FrameOrder) : ∃ l n u v w,
      OwnFrame (ctxOf control slots (inHand out duck s)) l n (inHand out duck s) u v w ∧
      v = (wordDone asm lost mark word (inHand out duck s).port.sender u).state ∧
      (ctxOf control slots (inHand out duck s)).view = (inHand out duck s).channels ∧
      samplePath control out slots duck order { s with port.misses := 0 } =
        (restored (inHand out duck s) w).once (s.port.sender.deferredIn word) := by
  obtain ⟨l, n, u, v, w, own, hv, view, run⟩ := ownFrame_runActs hw slots order
  refine ⟨l, n, u, v, w, own, hv, view, ?_⟩
  rw [samplePath_eq]
  refine (congrArg Turn.finish ?_).trans (own.finish hv)
  have path : arrived out duck { s with port.misses := 0 } = inHand out duck s := rfl
  rw [path, run]

/-- What such a frame leaves. -/
theorem samplePath_own (hw : OwnWord control word asm lost mark (inHand out duck s)) (routing : RoutingInv s)
    (inv : SchedInv s) (slots : Option (Vector Sample 32)) (samples : sourceSamples s slots = taken) (order : FrameOrder) :
    ∃ u y t, OwnEnd s duck out taken word asm lost mark u y t ∧
      samplePath control out slots duck order { s with port.misses := 0 } = t.once (s.port.sender.deferredIn word) := by
  obtain ⟨l, n, u, v, w, own, hv, view, run⟩ := samplePath_ownFrame hw slots order
  have hand : (inHand out duck s).ringOut = some out := rfl
  obtain ⟨y, hy, judged, sync, check, control', answer, roll, service, low⟩ := own.leaves hv hand
  have inv' : SchedInv (inHand out duck s) := inv.of_same ⟨rfl, rfl, rfl, fun _ => rfl, fun _ => .inl rfl⟩
  have once : WrittenOnce (inHand out duck s).channels := routing.writtenOnce
  have samples' : sourceSamples (inHand out duck s) (ctxOf control slots (inHand out duck s)).slots = taken := samples
  obtain ⟨audio, held⟩ := own.audioMoves once view rfl rfl samples' hand hy
  obtain ⟨untouched, assembler, sender, ctrlLost⟩ := own.untouched hv
  refine ⟨u, y, restored (inHand out duck s) w, ⟨own.early, ?_, judged, sync, check, control', answer, roll, ?_, ?_,
    audioMoves_inHand audio, channelsAfter_inHand (own.channelsAfter inv' view rfl rfl samples'), held, untouched, assembler,
    sender, ctrlLost⟩, run⟩
  · show w.ringOut.map recheck = _
    rw [hy]
    rfl
  · intro any
    refine own.late.anyKind ?_
    obtain ⟨address, twin, e⟩ := applyDeferred_eq ((inHand out duck s).port.sender.deferredIn word)
      (afterWord asm ((inHand out duck s).port.sender.after word) lost (mark u)
        (fun old => (inHand out duck s).port.sender.written word old) u)
    rw [hv.trans e]
    exact any
  · intro keeps
    obtain ⟨z, before, after, e⟩ := own.request fun hu => by
      rw [← own.late.anyKind_ctrlLost, ctrlLost]
      exact keeps (own.early.anyKind_ctrlLost.symm.trans hu)
    refine ⟨z, before, after, ?_⟩
    rw [service] at e
    have start : servicePart (inHand out duck s) = some out.frame.fields.service := rfl
    rw [start] at e
    split at e
    · rename_i any
      rw [if_pos any]
      exact Option.some.inj e
    · rename_i any
      rw [if_neg any]
      exact Option.some.inj e

section
variable {u : State} (h : OwnEnd s duck out taken word asm lost mark u y t)
include h

/-- The request bit and the seven bits before it (R163). -/
theorem OwnEnd.service (keeps : s.notices.pending.ctrlLost = true → lost = true) :
    (∀ n : Fin 7, y.frame.fields.service.getLsbD n.val = out.frame.fields.service.getLsbD n.val) ∧
    (out.frame.fields.service.getLsbD 7 = true → y.frame.fields.service.getLsbD 7 = true) ∧
    (anyKind s.notices.pending = true → y.frame.fields.service.getLsbD 7 = true) ∧
    (anyKind t.notices.pending = false → y.frame.fields.service = out.frame.fields.service) := by
  obtain ⟨z, before, after, e⟩ := h.request keeps
  rw [e]
  cases any : anyKind z.notices.pending with
  | true =>
    rw [if_pos rfl]
    refine ⟨fun n => ?_, fun _ => ?_, fun _ => ?_, fun no => ?_⟩
    · have low : ∀ n : Fin 7, (128#8).getLsbD n.val = false := by decide
      rw [BitVec.getLsbD_or, low, Bool.or_false]
    · rw [BitVec.getLsbD_or]; exact Bool.or_true _
    · rw [BitVec.getLsbD_or]; exact Bool.or_true _
    · rw [after any] at no; cases no
  | false =>
    rw [if_neg (by decide)]
    exact ⟨fun _ => rfl, id, fun some => absurd any (by rw [before some]; decide), fun _ => rfl⟩

/-- The answer word and the sender, where the word is no CLEAR (R157). -/
theorem OwnEnd.answers (clear : word.extractLsb' 30 2 ≠ 3) :
    (∀ x d, s.port.sender = .answering x [] d → y.frame.fields.answer = x ∧ t.port.sender = .quiet) ∧
    (∀ x v rest d, s.port.sender = .answering x (v :: rest) d →
      y.frame.fields.answer = x ∧ t.port.sender = .answering v rest d) := by
  refine ⟨fun x d e => ?_, fun x v rest d e => ?_⟩
  · rw [h.answer, h.sender, e]
    exact ⟨if_neg clear, rfl⟩
  · rw [h.answer, h.sender, e]
    exact ⟨if_neg clear, if_neg clear⟩

theorem OwnEnd.quiet (quiet : s.port.sender = .quiet ∨ word.extractLsb' 30 2 = 3) :
    y.frame.fields.answer = out.frame.fields.answer ∧ t.port.sender = .quiet := by
  rw [h.answer, h.sender]
  rcases quiet with e | clear
  · rw [e]; exact ⟨rfl, rfl⟩
  · exact ⟨congrFun (written_clear clear _) _, after_clear clear _⟩

end

theorem outFrame_eq {j : Judged} {sync check : BitVec 16} (judged : y.judged = j) (sync' : y.frame.sync = sync)
    (check' : y.frame.check = check) :
    y = { frame := { sync := sync, fields := y.frame.fields, check := check }, judged := j } := by
  subst judged sync' check'
  rfl

/-! ### The damaged frame -/

/-- What a message being collected leaves of CTRL_LOST, whenever in the frame it is dropped. -/
theorem Around.collectingLost (h : Around s t) :
    t.collectingLost.notices.pending.ctrlLost = s.collectingLost.notices.pending.ctrlLost := by
  unfold State.collectingLost
  dsimp only
  rw [h.anyKind_ctrlLost, h.assembler, h.notices.1]

theorem collectingLost_keeps (s : State) (h : s.notices.pending.ctrlLost = true) :
    s.collectingLost.notices.pending.ctrlLost = true := by
  show (s.notices.pending.ctrlLost || _) = true
  rw [h]
  rfl

theorem ownWord_damaged (a : State) : OwnWord (fun t => { state := abandonMessage t, reset := false }) 0 .idle
    a.collectingLost.notices.pending.ctrlLost (fun _ => id) a := by
  intro u h
  rw [controlAct_damaged, h.collectingLost, h.sender]
  rfl

theorem heldAfter_samplesHeld (s : State) : heldAfter s (samplesHeld s) = s.port.held := by
  refine Vector.ext fun i hi => ?_
  have at_ := heldAfter_at (s := s) (samplesHeld s) ⟨i, hi⟩
  rw [show (heldAfter s (samplesHeld s))[i] = (heldAfter s (samplesHeld s))[(⟨i, hi⟩ : SourceId)] from rfl, at_]
  split
  · rfl
  · rename_i present
    exact samplesHeld_at s present

theorem exec_damaged_locked (h : s.pins.reset = false) (hl : s.port.lock = .locked) (f : FrameFields) {check : BitVec 16}
    (damaged : check ≠ checkValue f) (duck : Bool) (order : FrameOrder) :
    exec (.damagedFrame f check duck order) s = .next (samplePath (fun t => { state := abandonMessage t, reset := false })
      { frame := { sync := syncPattern, fields := f, check := check }, judged := .damaged } none duck order
      { s with port.misses := 0 }) := by
  rw [exec_damagedFrame_eq, if_neg damaged, goodSync_locked h hl]
  rfl

/-- Settles O46: the frame's word is the Ring Port's own, whatever the word. -/
theorem damagedFrameOut : Obligations.DamagedFrameOut := by
  refine ⟨fun s f duck order => ?_, fun s f check duck order hr hl damaged routing inv => ?_⟩
  · rw [exec_damagedFrame_eq, if_pos rfl, exec_frame_eq]
  · obtain ⟨u, y, t, own, run⟩ := samplePath_own (ownWord_damaged
      (inHand { frame := { sync := syncPattern, fields := f, check := check }, judged := .damaged } duck s))
      routing inv none (sourceSamples_damaged s) order
    have same : recheck y = y := by unfold recheck; rw [own.judged]
    have frame := same.trans (outFrame_eq own.judged own.sync own.check)
    obtain ⟨low, set, pending, none⟩ := own.service (collectingLost_keeps _)
    obtain ⟨last, more⟩ := own.answers (by decide)
    have un := own.untouched
    refine ⟨t, y.frame.fields, ?_, own.hand.trans (congrArg some frame), own.control, own.roll, own.audio, own.after,
      fun quiet => own.quiet (.inl quiet), last, more, low, set, pending, none, own.held.trans (heldAfter_samplesHeld s),
      own.assembler, own.ctrlLost, un.relock, un.lock.1.trans hl, un.lock.2, un.address.1, un.address.2, un.sources,
      un.channels, un.programs, un.gain.1, un.gain.2, un.pins, un.notices.1, un.notices.2, un.queue⟩
    rw [exec_damaged_locked hr hl f damaged, run]

end Sys2Proof.Machine
end

section
/-! The intact frame whose control word completes no message for an owner (R146, R155, R157, R158, R163, R166). -/

namespace Sys2Proof.Machine

variable {s t a u v : State} {w : Word32}

theorem Around.answersTo (h : Around a u) (n : BitVec 5) : Machine.answersTo u.port n = Machine.answersTo a.port n := by
  unfold Machine.answersTo
  rw [h.address.1, h.address.2]

theorem HandsNothing.around (h : HandsNothing a w) (around : Around a u) : HandsNothing u w := by
  unfold HandsNothing at *
  rw [around.assembler]
  simp only [around.answersTo]
  exact h

theorem nextAssembler_around (around : Around a u) (w : Word32) : nextAssembler u.port w = nextAssembler a.port w := by
  unfold nextAssembler
  rw [around.assembler]
  simp only [around.answersTo]

theorem lostBy_around (around : Around a u) (w : Word32) :
    (lostBy w u).notices.pending.ctrlLost = (lostBy w a).notices.pending.ctrlLost := by
  unfold lostBy
  split
  · exact around.collectingLost
  · exact around.anyKind_ctrlLost

/-- The control word of a frame in hand, wherever among its acts. -/
theorem ownWord_neutral (h : HandsNothing a w) (intact : ∀ o ∈ a.ringOut, o.judged = .intact) (some : a.ringOut ≠ none) :
    OwnWord (takeControlWord w) w (nextAssembler a.port w) (lostBy w a).notices.pending.ctrlLost
      (fun u => rollMark w (lostBy w u).notices) a := by
  intro u around
  have intact' : ∀ o ∈ u.ringOut, o.judged = .intact := by
    obtain ⟨out, hand⟩ := Option.ne_none_iff_exists'.mp some
    obtain ⟨x, hx, judged, -⟩ := around.frame out hand
    intro o ho
    rw [Option.mem_def.mp hx] at ho
    rw [← Option.some.inj ho, judged]
    exact intact out hand
  rw [controlAct_neutral (h.around around) intact', nextAssembler_around around, lostBy_around around, around.sender]
  rfl

/-- What the assembler and CTRL_LOST become is the word's, taken in the state the frame found. -/
theorem takeControlWord_leaves (h : HandsNothing s w) :
    (takeControlWord w s).state.port.assembler = nextAssembler s.port w ∧
    (takeControlWord w s).state.notices.pending.ctrlLost = (lostBy w s).notices.pending.ctrlLost := by
  by_cases clear : w.extractLsb' 30 2 = 3
  · have type := (controlType_iff w).2.2.2.mpr clear
    have taken : takeControlWord w s = takeClear s := by unfold takeControlWord; rw [type]
    have other : w.extractLsb' 30 2 ≠ 1 := by rw [clear]; decide
    obtain ⟨address, twin, e⟩ := applyDeferred_eq s.port.sender.deferred { s with port.assembler := .idle, port.sender := .quiet }
    rw [taken, takeClear_eq, e]
    unfold nextAssembler lostBy
    rw [type, if_neg other]
    exact ⟨rfl, rfl⟩
  · rw [takeControlWord_neutral h clear]
    refine ⟨rfl, ?_⟩
    unfold calledBy
    split
    · unfold markRoll
      split <;> rfl
    · rfl

theorem lostBy_pending (w : Word32) (u : State) : (lostBy w u).notices.pending =
    { u.notices.pending with ctrlLost := (lostBy w u).notices.pending.ctrlLost } ∧
    (lostBy w u).notices.roll = u.notices.roll := by
  unfold lostBy
  split <;> exact ⟨rfl, rfl⟩

theorem lostBy_keeps (w : Word32) (s : State) (h : s.notices.pending.ctrlLost = true) :
    (lostBy w s).notices.pending.ctrlLost = true := by
  unfold lostBy
  split
  · exact collectingLost_keeps s h
  · exact h

/-- ROLL as the word leaves it (R166). -/
theorem rollMark_cases (w : Word32) (n : NoticeUnit) (old : BitVec 8) :
    (¬ (w.extractLsb' 30 2 = 1 ∧ callsRoll (readHeader w)) ∨ n.roll = .off → rollMark w n old = old) ∧
    (∀ b : Fin 8, w.extractLsb' 30 2 = 1 ∧ callsRoll (readHeader w) → n.roll = .whenPending b →
      rollMark w n old = if anyKind n.pending then old ||| (1#8 <<< b.val) else old) ∧
    (∀ b : Fin 8, w.extractLsb' 30 2 = 1 ∧ callsRoll (readHeader w) → n.roll = .whenClear b →
      rollMark w n old = if anyKind n.pending then old else old ||| (1#8 <<< b.val)) := by
  have calls : (w.extractLsb' 30 2 = 1 ∧ rolls (readHeader w) = true) ↔
      (w.extractLsb' 30 2 = 1 ∧ callsRoll (readHeader w)) := and_congr_right fun _ => rolls_iff _
  unfold rollMark rollOf rollBit setBit
  refine ⟨?_, fun b c roll => ?_, fun b c roll => ?_⟩
  · rintro (no | off)
    · rw [if_neg (mt calls.mp no)]
    · rw [off, Option.elim_none, ite_self]
  · rw [if_pos (calls.mpr c), roll]
    dsimp only
    split <;> rfl
  · rw [if_pos (calls.mpr c), roll]
    dsimp only
    split <;> rfl

/-- The kinds pending as a header's mark is made: no fewer than at the frame's head, and none that is gone at its end. -/
theorem lostBy_anyKind (around : Around a u) (h : anyKind (lostBy w a).notices.pending = true) :
    anyKind (lostBy w u).notices.pending = true := by
  rw [(lostBy_pending w _).1] at h ⊢
  rw [anyKind_iff] at h ⊢
  obtain ⟨k, hk⟩ := h
  refine ⟨k, ?_⟩
  cases k with
  | ctrlLost => exact (lostBy_around around w).trans hk
  | relock => exact around.kinds .relock hk
  | speedLost => exact around.kinds .speedLost hk
  | clip => exact around.kinds .clip hk
  | pageSettled => exact around.kinds .pageSettled hk
  | duckLine => exact around.kinds .duckLine hk

theorem lostBy_inHand (w : Word32) (out : OutFrame) (duck : Bool) (s : State) :
    (lostBy w (inHand out duck s)).notices = (lostBy w s).notices := by
  unfold lostBy
  split <;> rfl

theorem exec_frame_locked (h : s.pins.reset = false) (hl : s.port.lock = .locked) (f : FrameFields) (duck : Bool)
    (order : FrameOrder) : exec (.frame f duck order) s = .next (samplePath (takeControlWord f.control)
      { frame := { sync := syncPattern, fields := f, check := checkValue f }, judged := .intact } (some f.slots) duck order
      { s with port.misses := 0 }) := by
  rw [exec_frame_eq, goodSync_locked h hl]
  rfl

/-- Settles O44: the frame's word is the Ring Port's own wherever among the acts it is taken. -/
theorem frameOut : Obligations.FrameOut := by
  intro s f duck order hr hl hands routing inv
  obtain ⟨u, y, t, own, run⟩ := samplePath_own (duck := duck)
    (out := { frame := { sync := syncPattern, fields := f, check := checkValue f }, judged := .intact })
    (ownWord_neutral (w := f.control) hands (fun o ho => by rw [← Option.some.inj (Option.mem_def.mp ho)]) (by rintro ⟨⟩))
    routing inv (some f.slots) (sourceSamples_intact s f.slots) order
  have renewed : recheck y = { y with frame.check := checkValue y.frame.fields } := by unfold recheck; rw [own.judged]
  have frame := renewed.trans (outFrame_eq (y := { y with frame.check := checkValue y.frame.fields }) own.judged own.sync rfl)
  obtain ⟨asm, ctrl⟩ := takeControlWord_leaves hands
  obtain ⟨low, set, pending, none⟩ := own.service (lostBy_keeps f.control (inHand _ duck s))
  obtain ⟨off, whenPending, whenClear⟩ := rollMark_cases f.control (lostBy f.control u).notices f.roll
  obtain ⟨kinds, assigned⟩ := lostBy_pending f.control u
  rw [assigned.trans own.around.notices.2] at off whenPending whenClear
  have roll := own.roll
  have atMark : anyKind (lostBy f.control s).notices.pending = true →
      anyKind (lostBy f.control u).notices.pending = true := fun any =>
    lostBy_anyKind own.around (by rw [lostBy_inHand]; exact any)
  have atEnd : anyKind (lostBy f.control u).notices.pending = true → anyKind t.notices.pending = true := fun any => by
    refine own.marked ?_
    rw [kinds, lostBy_around own.around] at any
    exact any
  have un := own.untouched
  refine ⟨t, y.frame.fields, ?_, own.hand.trans (congrArg some frame), own.control, own.audio, own.after, own.quiet,
    fun x d e clear => (own.answers clear).1 x d e, fun x v rest d e clear => (own.answers clear).2 x v rest d e, low, set,
    pending, none, fun no => roll.trans (off no), fun b c e => ?_, fun b c e => ?_, fun i => ?_, own.assembler.trans asm.symm,
    own.ctrlLost.trans (by rw [lostBy_inHand, ctrl]), un.relock, un.lock.1.trans hl, un.lock.2, un.address.1, un.address.2, un.sources,
    un.channels, un.programs, un.gain.1, un.gain.2, un.pins, un.notices.1, un.notices.2, un.queue⟩
  · rw [exec_frame_locked hr hl, run]
  · rw [roll, whenPending b c e]
    refine ⟨?_, fun any => if_pos (atMark any), fun any => if_neg fun any' => ?_⟩
    · split
      exacts [.inr rfl, .inl rfl]
    · rw [atEnd any'] at any; cases any
  · rw [roll, whenClear b c e]
    refine ⟨?_, fun any => if_pos (atMark any), fun any => if_neg fun any' => ?_⟩
    · split
      exacts [.inl rfl, .inr rfl]
    · rw [atEnd any'] at any; cases any
  · rw [own.held, heldAfter_at]

end Sys2Proof.Machine
end

section
/-! The completions of a frame as the FADE_COMPLETE rows of its slots (R136, R137). -/

namespace Sys2Proof.Machine

variable {s t x y z : State} {i j : FadeSlot} {f g : Fade} {k : Nat} {L : List FadeSlot}

/-! ### What a completion reads and moves -/

/-- Two states with the same switch states, queue, records, programs and live counts; their slots may differ. -/
structure Alike (x z : State) : Prop where
  switch : z.sched.switch = x.sched.switch
  queue : z.sched.queue = x.sched.queue
  channels : z.channels = x.channels
  zones : z.gain.zones = x.gain.zones
  programs : z.equaliser.programs = x.equaliser.programs
  live : ∀ n : SectionId, (z.equaliser.sections[n]).live = (x.equaliser.sections[n]).live

theorem Alike.programOf (h : Alike x z) (p : Page) (c : Chan) : Machine.programOf z p c = Machine.programOf x p c := by
  unfold Machine.programOf
  rw [h.programs]

/-- Two states that a change moves alike stay alike. -/
theorem Alike.moved (h : Alike x z) {c : Chan} {w : Switch} {a b : Vector (Option Fade) 8} {q r : List Chan} {x' z' : State}
    (mx : Moved x c w a q x') (mz : Moved z c w b r z') (queue : r = q)
    (px : x'.equaliser.programs = x.equaliser.programs) (pz : z'.equaliser.programs = z.equaliser.programs)
    (live : ∀ n : SectionId, (z'.equaliser.sections[n]).live = (x'.equaliser.sections[n]).live) : Alike x' z' := by
  refine ⟨?_, by rw [mx.queue, mz.queue, queue], ?_, ?_, by rw [px, pz, h.programs], live⟩
  · rw [mx.switch, mz.switch, h.switch]
  · rw [mx.channels, mz.channels, h.channels]
  · rw [mx.zones, mz.zones, h.zones]

theorem Alike.carryOver (h : Alike x z) (f : Fade) (i : FadeSlot) : Alike (carryOver f i x) (carryOver f i z) :=
  h.moved (carry_moved f i) (carry_moved f i) h.queue (onlyPages_carryOver f i).programs (onlyPages_carryOver f i).programs
    fun n => by rw [carryOver_live, carryOver_live, h.live, h.programOf]

theorem Alike.requeue (h : Alike x z) (f : Fade) : Alike (requeue f x) (requeue f z) := by
  cases hn : f.next with
  | none => rwa [requeue_none hn, requeue_none hn]
  | some r =>
    exact h.moved (requeue_moved hn) (requeue_moved hn) (by rw [h.queue]) (by rw [requeue_equaliser])
      (by rw [requeue_equaliser]) fun n => by rw [requeue_equaliser, requeue_equaliser, h.live]

/-- A free slot that both find free is granted alike. -/
theorem Alike.grantHead (h : Alike x z) (i : FadeSlot) (free : z.sched.slots[i] = x.sched.slots[i]) :
    Alike (grantHead i x) (grantHead i z) ∧ (grantHead i z).sched.slots[i] = (grantHead i x).sched.slots[i] ∧
      ∀ j ≠ i, (grantHead i x).sched.slots[j] = x.sched.slots[j] ∧ (grantHead i z).sched.slots[j] = z.sched.slots[j] := by
  unfold Machine.grantHead
  rw [h.queue, h.switch]
  cases x.sched.queue with
  | nil => exact ⟨h, free, fun _ _ => ⟨rfl, rfl⟩⟩
  | cons d rest =>
    have popped : Alike (setQueue rest x) (setQueue rest z) := ⟨h.switch, rfl, h.channels, h.zones, h.programs, h.live⟩
    dsimp only
    cases x.sched.switch[d] with
    | steady _ => exact ⟨popped, free, fun _ _ => ⟨rfl, rfl⟩⟩
    | fading _ _ => exact ⟨popped, free, fun _ _ => ⟨rfl, rfl⟩⟩
    | queued p q =>
      have mx := start_moved (s := x) d p q i rest
      have mz := start_moved (s := z) d p q i rest
      have fresh : freshFade z d p q = freshFade x d p q := by
        unfold freshFade fadeLength
        rw [h.zones, h.channels]
      refine ⟨h.moved mx mz rfl (onlyPages_startFade d p q i).programs (onlyPages_startFade d p q i).programs fun n => ?_,
        ?_, fun j hj => ?_⟩
      · rw [startFade_live, startFade_live, popped.live, popped.programOf]
      · rw [mx.slots, mz.slots, get_set, get_set, if_pos rfl, if_pos rfl, fresh]
      · rw [mx.slots, mz.slots, get_set, get_set, if_neg hj, if_neg hj]
        exact ⟨rfl, rfl⟩

/-- Two completions of the same fade, whatever its progress. -/
theorem Alike.completeFade (h : Alike x z) (hx : x.sched.slots[i] = some { f with k := k }) (hz : z.sched.slots[i] = some f) :
    Alike (completeFade i x) (completeFade i z) ∧
      (completeFade i z).sched.slots[i] = (completeFade i x).sched.slots[i] ∧
      ∀ j ≠ i, (completeFade i x).sched.slots[j] = x.sched.slots[j] ∧ (completeFade i z).sched.slots[j] = z.sched.slots[j] := by
  rw [completeFade_eq hx, completeFade_eq hz]
  have same : carried { f with k := k } i x = carried f i x := rfl
  rw [same]
  have alike : Alike (carried f i x) (carried f i z) := (h.carryOver f i).requeue f
  obtain ⟨a, slot, others⟩ := alike.grantHead i (by rw [carried_slot, carried_slot])
  refine ⟨a, slot, fun j hj => ?_⟩
  obtain ⟨jx, jz⟩ := others j hj
  rw [jx, jz, carried_slots, carried_slots, get_set, get_set, if_neg hj, if_neg hj]
  exact ⟨rfl, rfl⟩

/-! ### The rows -/

theorem exec_fadeComplete_due (hf : s.sched.slots[i] = some f) (on : listening s = true) (last : f.k + 1 = f.length) :
    exec (.fadeComplete i) s = .next (resettle s.channels[f.channel].zone (completeFade i s)) := by
  simp only [exec, execFadeComplete]
  rw [hf]
  exact congrArg Host.Outcome.next (if_pos ⟨on, last⟩)

theorem Alike.resettle (h : Alike x z) (y : Zone) : Alike x (resettle y z) := by
  refine ⟨?_, ?_, ?_, ?_, ?_, fun n => ?_⟩
  · rw [resettle_switch, h.switch]
  · rw [resettle_queue, h.queue]
  · rw [resettle_channels, h.channels]
  · rw [resettle_gain, h.zones]
  · rw [equaliser_resettle, h.programs]
  · rw [equaliser_resettle, h.live]

/-- The slots picked by `due` hold in `z` fades at their last step, which `x` has made; the two agree on the others. -/
structure Stepped (due : FadeSlot → Bool) (x z : State) (L : List FadeSlot) : Prop where
  last : ∀ j ∈ L, due j = true →
    ∃ f, z.sched.slots[j] = some f ∧ f.k + 1 = f.length ∧ x.sched.slots[j] = some { f with k := f.k + 1 }
  going : ∀ j ∈ L, due j = false → reachedEnd x j = false
  same : ∀ j, (j ∈ L → due j = false) → z.sched.slots[j] = x.sched.slots[j]

/-- The completions of a frame are the rows of its due slots, one after another. -/
theorem execAll_completions (due : FadeSlot → Bool) (hL : L.Nodup) : ∀ x z : State, Alike x z → listening z = true →
    Stepped due x z L → ∃ v, execAll ((L.filter fun j => due j).map .fadeComplete) z = .next v ∧
      Alike (L.foldl completeIfReached x) v ∧ v.sched.slots = (L.foldl completeIfReached x).sched.slots := by
  induction L with
  | nil =>
    refine fun x z alike _ stepped => ⟨z, rfl, alike, ?_⟩
    exact Vector.ext fun j hj => stepped.same ⟨j, hj⟩ fun h => (by cases h)
  | cons i L ih =>
    obtain ⟨out, nodup⟩ := List.nodup_cons.mp hL
    intro x z alike on stepped
    rw [List.foldl_cons]
    cases hd : due i with
    | false =>
      have stays : completeIfReached x i = x := if_neg (by rw [stepped.going i List.mem_cons_self hd]; decide)
      rw [stays, List.filter_cons_of_neg (by rw [hd]; decide)]
      refine ih nodup x z alike on ⟨fun j hj => stepped.last j (List.mem_cons_of_mem _ hj),
        fun j hj => stepped.going j (List.mem_cons_of_mem _ hj), fun j hj => stepped.same j fun m => ?_⟩
      exact (List.mem_cons.mp m).elim (fun e => e ▸ hd) hj
    | true =>
      obtain ⟨f, hz, last, hx⟩ := stepped.last i List.mem_cons_self hd
      have completes : completeIfReached x i = completeFade i x :=
        if_pos (reachedEnd_iff.mpr ⟨_, hx, by dsimp only; omega⟩)
      obtain ⟨alike', slot, others⟩ := alike.completeFade hx hz
      have ne {j : FadeSlot} (hj : j ∈ L) : j ≠ i := fun e => out (e ▸ hj)
      rw [completes, List.filter_cons_of_pos hd, List.map_cons]
      unfold execAll
      rw [exec_fadeComplete_due hz on last]
      refine ih nodup _ _ (alike'.resettle z.channels[f.channel].zone) ?_ ⟨fun j hj dj => ?_, fun j hj dj => ?_, fun j hj => ?_⟩
      · rw [listening_iff, resettle_pins, resettle_port, (onlyPages_completeFade i).pins, (onlyPages_completeFade i).port]
        exact listening_iff.mp on
      · rw [resettle_slots, (others j (ne hj)).1, (others j (ne hj)).2]
        exact stepped.last j (List.mem_cons_of_mem _ hj) dj
      · unfold reachedEnd
        rw [(others j (ne hj)).1]
        exact stepped.going j (List.mem_cons_of_mem _ hj) dj
      · rw [resettle_slots]
        by_cases e : j = i
        · rw [e, slot]
        · rw [(others j e).1, (others j e).2]
          exact stepped.same j fun m => hj ((List.mem_cons.mp m).resolve_left e)

/-! ### The chains of the fades that start -/

/-- The target chain of a fade at its start is zero. -/
def FreshTargets (s : State) : Prop := ∀ (j : FadeSlot) (g : Fade), s.sched.slots[j] = some g → g.k = 0 →
  s.equaliser.target[g.channel] = some (List.replicate (programOf s g.target g.channel).length Position.zero)

theorem FreshTargets.completeIfReached (fresh : FreshTargets s) (h : SchedSound s) (i : FadeSlot) :
    FreshTargets (completeIfReached s i) := by
  unfold Machine.completeIfReached
  split
  · rename_i reached
    obtain ⟨f, hf, -⟩ := reachedEnd_iff.mp reached
    have laws := SchedActs.laws (h.laws.carried_acts hf h.resting) h.laws
    have granted := laws.grantHead_granted i
    have programs : (Machine.completeFade i s).equaliser.programs = s.equaliser.programs :=
      (onlyPages_completeFade i).programs
    intro j g hg start
    have program : programOf (Machine.completeFade i s) g.target g.channel = programOf s g.target g.channel := by
      unfold programOf; rw [programs]
    rw [program]
    rw [completeFade_eq hf] at hg ⊢
    by_cases hj : j = i
    · subst hj
      cases hq : (carried f j s).sched.queue with
      | nil =>
        rw [granted.free hq, carried_slot] at hg
        cases hg
      | cons d rest =>
        obtain ⟨p, q, hd⟩ := laws.head_waits hq
        obtain ⟨starts, -⟩ := granted.head d rest p q hq hd
        rw [starts.slot] at hg
        cases hg
        have same : programOf (carried f j s) q d = programOf s q d := by
          unfold programOf carried
          rw [(onlyPages_requeue f).programs, (onlyPages_carryOver f j).programs]
        rw [starts.target, same]
    · have old : (carried f i s).sched.slots[j] = some g := by rw [← granted.others j hj, hg]
      have unqueued := laws.fading_unqueued old
      have target := (granted.voicing g.channel fun e => unqueued (List.mem_of_head? e)).2
      have before : s.sched.slots[j] = some g := by rwa [carried_slots, get_set, if_neg hj] at old
      rw [target, carried_target, if_neg fun e => hj (h.laws.slot_unique before hf e)]
      exact fresh j g before start
  · exact fresh

theorem FreshTargets.completions (L : List FadeSlot) : ∀ s : State, FreshTargets s → SchedSound s →
    FreshTargets (L.foldl Machine.completeIfReached s) := by
  induction L with
  | nil => exact fun _ h _ => h
  | cons i L ih => exact fun s fresh h => ih _ (fresh.completeIfReached h i) (completeIfReached_sound h i)

end Sys2Proof.Machine
end

section
/-! The fades of a frame in which the staleness counter does not run out: nothing but the fades' act moves a page (R135 to
R137, R144). -/

namespace Sys2Proof.Machine

variable {s t a b u v w y z : State} {x : FrameCtx} {l n m : List FrameStep} {r : FrameRun}

/-! ### Acts that move no page -/

/-- The scheduler, the Equaliser, the zones and the notice of settled pages are the same. -/
structure SameVoices (s t : State) : Prop where
  sched : t.sched = s.sched
  equaliser : t.equaliser = s.equaliser
  channels : t.channels = s.channels
  zones : t.gain.zones = s.gain.zones
  notice : t.notices.enabled = s.notices.enabled ∧ t.notices.pending.pageSettled = s.notices.pending.pageSettled

theorem SameVoices.refl (s : State) : SameVoices s s := ⟨rfl, rfl, rfl, rfl, rfl, rfl⟩

theorem SameVoices.trans (h : SameVoices s t) (g : SameVoices t u) : SameVoices s u :=
  ⟨g.sched.trans h.sched, g.equaliser.trans h.equaliser, g.channels.trans h.channels, g.zones.trans h.zones,
    g.notice.1.trans h.notice.1, g.notice.2.trans h.notice.2⟩

theorem Dressed.sameVoices (h : Dressed u v) : SameVoices u v := by
  obtain ⟨asm, sender, lost, roll, answer, address, twin, e⟩ := h
  rw [e]
  exact ⟨rfl, rfl, rfl, rfl, rfl, rfl⟩

theorem step_sameVoices {c : FrameStep} (hc : c ≠ .act .control) (hf : c ≠ .act .fades) (ha : c ≠ .audio) (r : FrameRun)
    (calm : c = .act .staleness → NoExpiry r.state) : SameVoices r.state (runStep x r c).state := by
  cases c with
  | audio => exact absurd rfl ha
  | act k =>
    cases k with
    | control => exact absurd rfl hc
    | fades => exact absurd rfl hf
    | request =>
      obtain ⟨o, e⟩ := requestAct_parts r.state
      exact (show (runStep x r (.act .request)).state = _ from e) ▸ ⟨rfl, rfl, rfl, rfl, rfl, rfl⟩
    | meters =>
      obtain ⟨o, k, e⟩ := metersAct_parts x.view r.runs r.state
      exact (show (runStep x r (.act .meters)).state = _ from e) ▸ ⟨rfl, rfl, rfl, rfl, rfl, rfl⟩
    | count l =>
      obtain ⟨y, cur, e, -⟩ := countLane_parts l r.state
      exact (show (runStep x r (.act (.count l))).state = _ from e) ▸ ⟨rfl, rfl, rfl, rfl, rfl, rfl⟩
    | staleness =>
      obtain ⟨y, e⟩ := countStaleness_still (calm rfl)
      exact (show (runStep x r (.act .staleness)).state = _ from e) ▸ ⟨rfl, rfl, rfl, rfl, rfl, rfl⟩
    | duckLine =>
      obtain ⟨d, y, k, e⟩ := countDuck_parts r.state
      exact (show (runStep x r (.act .duckLine)).state = _ from e) ▸ ⟨rfl, rfl, rfl, rfl, rfl, rfl⟩

/-- A run of acts after the audio: all but the fades' act move no page. -/
theorem steps_sameVoices (hc : .act .control ∉ m) (ha : .audio ∉ m) (hn : m.Nodup) : ∀ r : FrameRun,
    (.act .staleness ∈ m → NoExpiry r.state) →
    (.act .fades ∉ m → SameVoices r.state (m.foldl (runStep x) r).state) ∧
    (.act .fades ∈ m → ∃ y, SameVoices r.state y ∧ SameVoices (fadesAct x.view x.step y) (m.foldl (runStep x) r).state) := by
  induction m with
  | nil => exact fun r _ => ⟨fun _ => .refl _, fun h => (by cases h)⟩
  | cons c m ih =>
    obtain ⟨nc, hc'⟩ := not_or.mp fun h => hc (List.mem_cons.mpr h)
    obtain ⟨na, ha'⟩ := not_or.mp fun h => ha (List.mem_cons.mpr h)
    obtain ⟨out, hn'⟩ := List.nodup_cons.mp hn
    intro r calm
    obtain ⟨without, within⟩ := ih hc' ha' hn' (runStep x r c) fun hs => by
      have other : c ≠ .act .staleness := fun e => out (e ▸ hs)
      exact (calm (List.mem_cons_of_mem _ hs)).congr (trackPart_eq_iff.mp (track_keeps (Ne.symm nc) other r)).1
    by_cases hf : c = .act .fades
    · subst hf
      exact ⟨fun h => absurd List.mem_cons_self h, fun _ => ⟨r.state, .refl _, without out⟩⟩
    · have first := step_sameVoices (x := x) (Ne.symm nc) hf (Ne.symm na) r fun e => calm (by rw [e]; exact List.mem_cons_self)
      refine ⟨fun h => first.trans (without fun hm => h (List.mem_cons_of_mem _ hm)), fun h => ?_⟩
      obtain ⟨y, before, after⟩ := within ((List.mem_cons.mp h).resolve_left (Ne.symm hf))
      exact ⟨y, first.trans before, after⟩

theorem OwnFrame.voices (h : OwnFrame x l n a u v w) (calm : NoExpiry a) :
    ∃ y, SameVoices (audioAct x (arrival a)).state y ∧ SameVoices (fadesAct x.view x.step y) w := by
  obtain ⟨m, e, control, out, nodup, out', before⟩ := h.first
  have quiet : NoExpiry (audioAct x (arrival a)).state :=
    calm.congr (trackPart_eq_iff.mp (track_keeps (x := x) (c := .audio) (by simp) (by simp) (arrival a))).1
  obtain ⟨without, within⟩ := steps_sameVoices (x := x) control out nodup (audioAct x (arrival a)) fun _ => quiet
  obtain ⟨without', within'⟩ := steps_sameVoices (x := x) h.halves.late out' h.halves.nodups.2
    (runStep x (l.foldl (runStep x) (arrival a)) (.act .control)) (by rw [h.word]; exact h.calm calm)
  rw [before] at without within
  rw [h.after, h.word] at without' within'
  rcases h.halves.once (b := .act .fades) (by simp) with ⟨hl, hn⟩ | ⟨hl, hn⟩
  · obtain ⟨y, first, second⟩ := within ((List.mem_cons.mp (e ▸ hl)).resolve_left (by simp))
    exact ⟨y, first, (second.trans h.dressed.sameVoices).trans (without' hn)⟩
  · obtain ⟨y, first, second⟩ := within' hn
    exact ⟨y, ((without fun hm => hl (e ▸ List.mem_cons_of_mem _ hm)).trans h.dressed.sameVoices).trans first, second⟩

end Sys2Proof.Machine
end

section
/-! The fades of such a frame complete as their rows would, and the flags and chains follow (R122, R136, R137, R144). -/

namespace Sys2Proof.Machine

variable {s t a u v w y z : State} {x : FrameCtx} {l n m : List FrameStep} {r : FrameRun} {j : FadeSlot}

/-- What the fades' act reads of `y` is what stands in `s`. -/
structure FindsFades (s y : State) : Prop where
  sched : y.sched = s.sched
  channels : y.channels = s.channels
  zones : y.gain.zones = s.gain.zones
  programs : y.equaliser.programs = s.equaliser.programs
  sections : y.equaliser.sections = s.equaliser.sections
  notice : y.notices.enabled = s.notices.enabled ∧ y.notices.pending.pageSettled = s.notices.pending.pageSettled

theorem FindsFades.audio (x : FrameCtx) (h : SameVoices (audioAct x (arrival a)).state y) : FindsFades a y := by
  obtain ⟨o, held, delays, active, target, e⟩ := audioAct_parts x (arrival a)
  rw [e] at h
  exact ⟨h.sched, h.channels, h.zones, by rw [h.equaliser]; rfl, by rw [h.equaliser]; rfl, h.notice⟩

theorem FindsFades.schedInv (h : FindsFades s y) (inv : SchedInv s) : SchedInv y :=
  inv.of_same ⟨by rw [h.sched], by rw [h.sched], by rw [h.sched], fun _ => by rw [h.channels], fun _ => .inl (by rw [h.zones])⟩

/-- Every fade steps where all its channels run and all slots stood as the frame arrived. -/
theorem stepSlots_all (h : FindsFades s y) (inv : SchedInv s) (j : FadeSlot) :
    (stepSlots s.channels (occupied s) y).sched.slots[j] = (s.sched.slots[j]).map fun f => { f with k := f.k + 1 } := by
  obtain ⟨steps, still⟩ := stepSlots_at (s := y) s.channels (occupied s) j
  rw [h.sched] at steps still
  cases hf : s.sched.slots[j] with
  | none => rw [still (by rw [hf]; rintro _ ⟨⟩), hf]; rfl
  | some f =>
    refine steps f hf ⟨?_, inv.sound.laws.fading_runs hf inv.sound.resting⟩
    rw [occupied_at, hf]
    rfl

theorem fadesStepped_at (s : State) (j : FadeSlot) : s.fadesStepped.sched.slots[j] =
    if completesIn s j then s.sched.slots[j] else (s.sched.slots[j]).map fun f => { f with k := f.k + 1 } :=
  Vector.getElem_ofFn ..

theorem completesIn_iff : completesIn s j = true ↔ ∃ f, s.sched.slots[j] = some f ∧ f.k + 1 = f.length := by
  unfold completesIn
  cases s.sched.slots[j] <;> simp

/-- A stepped slot has reached its end exactly where its fade completes in this frame. -/
theorem reachedEnd_stepSlots (h : FindsFades s y) (inv : SchedInv s) (j : FadeSlot) :
    reachedEnd (stepSlots s.channels (occupied s) y) j = completesIn s j := by
  rw [Bool.eq_iff_iff, reachedEnd_iff, completesIn_iff, stepSlots_all h inv]
  constructor
  · rintro ⟨g, hg, end_⟩
    obtain ⟨f, hf, rfl⟩ := Option.map_eq_some_iff.mp hg
    have := (inv.progress j f hf).1
    exact ⟨f, hf, by dsimp only at end_; omega⟩
  · rintro ⟨f, hf, end_⟩
    exact ⟨_, by rw [hf]; rfl, by dsimp only; omega⟩

theorem stepped_fadesStepped (h : FindsFades s y) (inv : SchedInv s) (L : List FadeSlot) (all : ∀ j, j ∈ L) :
    Stepped (completesIn s) (stepSlots s.channels (occupied s) y) s.fadesStepped L := by
  refine ⟨fun j _ due => ?_, fun j _ due => by rw [reachedEnd_stepSlots h inv, due], fun j same => ?_⟩
  · obtain ⟨f, hf, last⟩ := completesIn_iff.mp due
    rw [fadesStepped_at, if_pos due, stepSlots_all h inv, hf]
    exact ⟨f, rfl, last, rfl⟩
  · rw [fadesStepped_at, if_neg (by rw [same (all j)]; decide), stepSlots_all h inv]

theorem alike_fadesStepped (h : FindsFades s y) : Alike (stepSlots s.channels (occupied s) y) s.fadesStepped :=
  ⟨by show s.sched.switch = y.sched.switch; rw [h.sched], by show s.sched.queue = y.sched.queue; rw [h.sched],
    h.channels.symm, h.zones.symm, h.programs.symm, fun n => by
      show (s.equaliser.sections[n]).live = (y.equaliser.sections[n]).live
      rw [h.sections]⟩

theorem completingIn_iff (h : FindsFades s y) (inv : SchedInv s) (z : Zone) :
    completingIn (stepSlots s.channels (occupied s) y) z = true ↔
      ∃ (j : FadeSlot) (g : Fade), s.sched.slots[j] = some g ∧ g.k + 1 = g.length ∧ s.channels[g.channel].zone = z := by
  have channels : (stepSlots s.channels (occupied s) y).channels = s.channels := h.channels
  unfold completingIn
  rw [List.any_eq_true, channels]
  constructor
  · rintro ⟨j, -, both⟩
    obtain ⟨reached, zone⟩ := (Bool.and_eq_true _ _).to_iff.mp both
    rw [reachedEnd_stepSlots h inv] at reached
    obtain ⟨f, hf, last⟩ := completesIn_iff.mp reached
    rw [stepSlots_all h inv, hf] at zone
    exact ⟨j, f, hf, last, beq_iff_eq.mp zone⟩
  · rintro ⟨j, f, hf, last, zone⟩
    refine ⟨j, List.mem_finRange j, ?_⟩
    rw [reachedEnd_stepSlots h inv, completesIn_iff.mpr ⟨f, hf, last⟩, stepSlots_all h inv, hf]
    exact beq_iff_eq.mpr zone

/-- What the completions of one frame make of the scheduler, the live counts, the chains that start and the flags. -/
structure FadesComplete (s t : State) : Prop where
  rows : ∃ v : State, execAll (completionRows s) s.fadesStepped = .next v ∧
    t.sched.switch = v.sched.switch ∧ t.sched.slots = v.sched.slots ∧ t.sched.queue = v.sched.queue ∧
    ∀ n : SectionId, (t.equaliser.sections[n]).live = (v.equaliser.sections[n]).live
  fresh : ∀ (j : FadeSlot) (g : Fade), t.sched.slots[j] = some g → g.k = 0 → t.equaliser.target[g.channel] =
    some (List.replicate (programOf s g.target g.channel).length Position.zero)
  flags : FlagsAfter (fun z => ∃ (j : FadeSlot) (g : Fade), s.sched.slots[j] = some g ∧ g.k + 1 = g.length ∧
    s.channels[g.channel].zone = z) s t
  notice : SettledNotice s t

theorem fadesAct_complete (h : FindsFades s y) (inv : SchedInv s) (on : listening s = true) :
    FadesComplete s (fadesAct s.channels (occupied s) y) := by
  have eq : fadesAct s.channels (occupied s) y =
      resettleZones (completingIn (stepSlots s.channels (occupied s) y) .a) (completingIn (stepSlots s.channels (occupied s) y) .b)
        ((List.finRange 8).foldl completeIfReached (stepSlots s.channels (occupied s) y)) := rfl
  have invy := h.schedInv inv
  have sound := invy.sound.stepSlots s.channels (occupied s)
  obtain ⟨-, acts, -⟩ := completions_sound (List.finRange 8) sound
  obtain ⟨v, rows, alike, slots⟩ := execAll_completions (completesIn s) (List.nodup_finRange 8) _ _ (alike_fadesStepped h) on
    (stepped_fadesStepped h inv _ fun j => List.mem_finRange j)
  have fresh := FreshTargets.completions (List.finRange 8) (stepSlots s.channels (occupied s) y) (by
    intro j g hg start
    rw [stepSlots_all h inv] at hg
    obtain ⟨f, -, rfl⟩ := Option.map_eq_some_iff.mp hg
    exact absurd start (Nat.succ_ne_zero _)) sound
  have programs := (SchedActs.onlyPages acts).programs
  have settled := SchedActs.settled acts
  have notices := SchedActs.notices acts
  rw [eq]
  have touched (z : Zone) := completingIn_iff h inv z
  generalize (List.finRange 8).foldl completeIfReached (stepSlots s.channels (occupied s) y) = c at *
  refine ⟨⟨v, rows, ?_, ?_, ?_, fun n => ?_⟩, fun j g hg start => ?_, ?_, ?_⟩
  · rw [resettleZones_switch, alike.switch]
  · rw [resettleZones_slots, slots]
  · rw [resettleZones_queue, alike.queue]
  · rw [equaliser_resettleZones, alike.live]
  · rw [resettleZones_slots] at hg
    rw [equaliser_resettleZones, fresh j g hg start]
    unfold programOf
    rw [programs]
    exact congrArg (fun p => some (List.replicate (p[g.target][g.channel]).length Position.zero)) h.programs
  · refine (flagsAfter_resettleZones (settled.trans (by rw [← h.sched]; rfl)) _ _).congr fun z => ?_
    rw [← touched z]
    cases z <;> rfl
  · have spec := (resettleZones_spec (completingIn (stepSlots s.channels (occupied s) y) .a)
      (completingIn (stepSlots s.channels (occupied s) y) .b) c).2.2
    unfold SettledNotice at *
    rw [spec, settled, notices]
    have same : (stepSlots s.channels (occupied s) y).sched.settled = s.sched.settled := by rw [← h.sched]; rfl
    rw [same]
    have kept : hasKind (stepSlots s.channels (occupied s) y).notices.pending .pageSettled =
      hasKind s.notices.pending .pageSettled := h.notice.2
    have enabled : (stepSlots s.channels (occupied s) y).notices.enabled = s.notices.enabled := h.notice.1
    rw [kept, enabled]

end Sys2Proof.Machine
end

section
/-! What one frame counts (R59, R60, R63, R79, R93, R135 to R137). -/

namespace Sys2Proof.Machine

variable {s t a u v w y z : State} {x : FrameCtx} {l n m : List FrameStep} {control : State → Turn} {word : Word32}
variable {asm : Assembler} {lost : Bool} {mark : State → BitVec 8 → BitVec 8} {out : OutFrame} {duck : Bool}

theorem FadesComplete.congr (h : FadesComplete s z) (g : SameVoices z w) : FadesComplete s w := by
  obtain ⟨⟨v, rows, switch, slots, queue, live⟩, fresh, flags, notice⟩ := h
  refine ⟨⟨v, rows, ?_, ?_, ?_, fun n => ?_⟩, fun j f hf start => ?_, fun y => ?_, ?_⟩
  · rw [g.sched, switch]
  · rw [g.sched, slots]
  · rw [g.sched, queue]
  · rw [g.equaliser, live]
  · rw [g.equaliser]
    exact fresh j f (by rw [← g.sched]; exact hf) start
  · rw [g.sched, g.channels, g.zones]
    exact flags y
  · unfold SettledNotice at *
    rw [g.sched]
    exact (iff_of_eq (congrArg (· = true) g.notice.2)).trans notice

/-! ### What the frame counts -/

section
variable (h : OwnFrame x l n (inHand out duck s) u v w)
include h

theorem OwnFrame.counts (k : Lane) : LaneCounts k s s.gain.targets (restored (inHand out duck s) w) ∨
    LaneCounts k s (restored (inHand out duck s) w).gain.targets (restored (inHand out duck s) w) :=
  (h.lanes k).imp (fun c => c.congr rfl rfl rfl) fun c => c.congr rfl rfl rfl

/-- The user and mute lanes, whose targets no act moves. -/
theorem OwnFrame.counts_still {k : Lane}
    (still : (restored (inHand out duck s) w).gain.targets.ofLane k = s.gain.targets.ofLane k) :
    LaneCounts k s s.gain.targets (restored (inHand out duck s) w) :=
  (h.counts k).elim id fun c => c.congr rfl rfl still.symm

theorem OwnFrame.follows : PlanFollows s (restored (inHand out duck s) w) ∧
    (restored (inHand out duck s) w).speed = s.speed.counted ∧
    ((restored (inHand out duck s) w).notices.pending.speedLost = true ↔ s.notices.pending.speedLost = true ∨
      (s.notices.enabled.speedLost = true ∧ s.speed.fresh = true ∧ s.speed.counter = 1)) := by
  obtain ⟨track, -⟩ := h.track
  have stands : trackPart (tracked (inHand out duck s)) = trackPart (tracked s) := trackPart_tracked rfl
  have now : trackPart (restored (inHand out duck s) w) = trackPart (if True then tracked s else s) :=
    (show trackPart w = _ from track.trans stands)
  obtain ⟨⟨zones, targets⟩, speed⟩ := speedFollows_of_track now
  obtain ⟨line, -⟩ := h.drop
  refine ⟨⟨zones, targets, line.stands, line.changes⟩, speed.trans (if_pos trivial), ?_⟩
  have lost := (trackPart_eq_iff.mp now).2.2.2.2.1
  rw [lost]
  show (s.notices.pending.speedLost || (s.speed.fresh && s.speed.counter == 1 && s.notices.enabled.speedLost)) = true ↔ _
  simp only [Bool.or_eq_true, Bool.and_eq_true, beq_iff_eq]
  refine or_congr_right ⟨fun ⟨⟨fresh, last⟩, on⟩ => ⟨on, fresh, last⟩, fun ⟨on, fresh, last⟩ => ⟨⟨fresh, last⟩, on⟩⟩

/-- The fades of a frame in which the staleness counter does not run out. -/
theorem OwnFrame.complete (view : x.view = s.channels) (step : x.step = occupied s) (inv : SchedInv s)
    (on : listening s = true) (calm : NoExpiry s) : FadesComplete s (restored (inHand out duck s) w) := by
  obtain ⟨y, before, after⟩ := h.voices (NoExpiry.congr calm rfl)
  rw [view, step] at after
  have finds := FindsFades.audio x before
  have finds' : FindsFades s y := ⟨finds.sched, finds.channels, finds.zones, finds.programs, finds.sections, finds.notice⟩
  exact ((fadesAct_complete finds' inv on).congr after).congr ⟨rfl, rfl, rfl, rfl, rfl, rfl⟩

/-- The fades that go on. -/
theorem OwnFrame.goesOn (view : x.view = s.channels) (step : x.step = occupied s) (inv : SchedInv s) :
    ∀ (j : FadeSlot) (g : Fade), s.sched.slots[j] = some g → g.k + 1 < g.length →
      ∃ p : Option Page, (restored (inHand out duck s) w).sched.slots[j] = some { g with k := g.k + 1, next := p } ∧
        (restored (inHand out duck s) w).sched.switch[g.channel] = .fading g.old j := by
  have inv' : SchedInv (inHand out duck s) := inv.of_same ⟨rfl, rfl, rfl, fun _ => rfl, fun _ => .inl rfl⟩
  obtain ⟨end_, pages⟩ := h.pages inv' view step
  have channels : w.channels = (inHand out duck s).channels := h.late.channels.trans (h.dressed.routing.1.trans h.early.channels)
  intro j g hg lt
  obtain ⟨⟨p, slot⟩, switch⟩ := (pages.fadesAfter inv' end_ channels).goesOn j g hg
    (inv.sound.laws.fading_runs hg inv.sound.resting) lt
  exact ⟨p, slot, switch⟩

end

theorem counted_running (fresh : s.speed.fresh = true) (more : 1 < s.speed.counter) :
    s.speed.counted = { s.speed with counter := s.speed.counter - 1 } := by
  unfold SpeedTracker.counted
  rw [if_neg (by simp only [fresh, Bool.true_eq_false, false_or]; omega), if_neg (by omega)]

theorem counted_last (fresh : s.speed.fresh = true) (last : s.speed.counter = 1) : s.speed.counted =
    { s.speed with fresh := false, candidate := none, accepted := s.speed.fallback, effective := s.speed.fallback,
                   counter := 0 } := by
  unfold SpeedTracker.counted
  rw [if_neg (by simp only [fresh, Bool.true_eq_false, false_or]; omega), if_pos last]

/-- A frame that takes its word at the Ring Port alone, intact or damaged. -/
theorem exec_ownFrame {f : FrameFields} {order : FrameOrder} {i : Instr} (hr : s.pins.reset = false)
    (hl : s.port.lock = .locked)
    (hi : i = .frame f duck order ∧ word = f.control ∧ HandsNothing s f.control ∨
      ∃ check : BitVec 16, check ≠ checkValue f ∧ i = .damagedFrame f check duck order ∧ word = 0) :
    ∃ out x l n u v w, OwnFrame x l n (inHand out duck s) u v w ∧ x.view = s.channels ∧ x.step = occupied s ∧
      exec i s = .next ((restored (inHand out duck s) w).once (s.port.sender.deferredIn word)) := by
  rcases hi with ⟨rfl, rfl, hands⟩ | ⟨check, damaged, rfl, rfl⟩
  · obtain ⟨l, n, u, v, w, own, -, view, run⟩ := samplePath_ownFrame (duck := duck)
      (out := { frame := { sync := syncPattern, fields := f, check := checkValue f }, judged := .intact })
      (ownWord_neutral (w := f.control) hands (fun o ho => by rw [← Option.some.inj (Option.mem_def.mp ho)]) (by rintro ⟨⟩))
      (some f.slots) order
    exact ⟨_, _, l, n, u, v, w, own, view, rfl, by rw [exec_frame_locked hr hl, run]⟩
  · obtain ⟨l, n, u, v, w, own, -, view, run⟩ := samplePath_ownFrame (duck := duck) (ownWord_damaged
      (inHand { frame := { sync := syncPattern, fields := f, check := check }, judged := .damaged } duck s)) none order
    exact ⟨_, _, l, n, u, v, w, own, view, rfl, by rw [exec_damaged_locked hr hl f damaged, run]⟩

/-- Settles O45: each counter's act is taken once, wherever among the acts of the frame. -/
theorem frameCounts : Obligations.FrameCounts := by
  intro s f duck order i word hr hl hi inv counters
  obtain ⟨out, x, l, n, u, v, w, own, view, step, run⟩ := exec_ownFrame hr hl hi
  have still : w.gain.targets.user = s.gain.targets.user ∧ w.gain.targets.mute = s.gain.targets.mute := by
    obtain ⟨asm, sender, lost, roll, answer, address, twin, e⟩ := own.dressed
    have late := own.late.targets
    rw [e] at late
    exact ⟨late.1.trans own.early.targets.1, late.2.trans own.early.targets.2⟩
  obtain ⟨follows, speed, lost⟩ := own.follows
  obtain ⟨line, -⟩ := own.drop
  have duckCount := counters.duckCount.1
  refine ⟨restored (inHand out duck s) w, run, own.counts_still (congrArg Vector.toList still.1),
    own.counts_still (congrArg Vector.toList still.2), own.counts .speed, own.counts .duck, still.1, still.2, follows, lost,
    line.notice, fun fresh more => speed.trans (counted_running fresh more), fun fresh last => ?_, fun idle => ?_,
    fun many => ?_, fun last => line.sampled last.le, own.goesOn view step inv, fun calm => ?_⟩
  · rw [speed, counted_last fresh last]
    exact ⟨rfl, rfl, rfl, rfl⟩
  · exact speed.trans (if_pos idle)
  · exact line.counts (show 1 < s.duck.count by omega)
  · have c := own.complete view step inv (listening_iff.mpr ⟨hr, hl⟩) calm
    exact ⟨c.rows, c.fresh, c.flags, c.notice⟩

end Sys2Proof.Machine
end

section
/-! How a frame takes its control word: the frame's end, the answer after the word, and a device reset (R147, R154, R157,
R159). -/

namespace Sys2Proof.Machine

variable {s t a u v w y : State} {x : FrameCtx} {l n : List FrameStep} {routing : Bool} {o : Option (Zone × Command)}
variable {word : Word32}

/-! ### The answer after the word -/

/-- A broadcast DEVICE_RESET leaves the sender as it stands until the frame's end (R159). -/
theorem judgeMessage_resetSender {r : Route} {space : BitVec 4} {code : BitVec 8} {m : Reading}
    (h : (judgeMessage r space code m s).reset = true) : (judgeMessage r space code m s).state.port.sender = s.port.sender := by
  unfold judgeMessage at h ⊢
  by_cases hb : r.address = broadcast
  · simp only [if_pos hb] at h ⊢
    unfold broadcastMessage at h ⊢
    cases m with
    | unknown => rfl
    | badLength => rfl
    | command c =>
      dsimp only at h ⊢
      split
      · rfl
      · obtain ⟨address, twin, e⟩ := applyDeferred_eq (takeCommand (routeZone s.port r) s c).after
          (takeCommand (routeZone s.port r) s c).state
        rw [e]
        exact (takeCommand_frame s _ c).sender
  · simp only [if_neg hb] at h
    cases hs : s.port.sender with
    | quiet => rw [hs] at h; cases h
    | answering y rest d => rw [hs] at h; cases h

theorem completeMessage_resetSender {h : Header} {ws : List Payload} (hr : (completeMessage h ws s).reset = true) :
    (completeMessage h ws s).state.port.sender = s.port.sender := judgeMessage_resetSender hr

theorem startMessage_resetSender {h : Header} (hr : (startMessage h s).reset = true) :
    (startMessage h s).state.port.sender = s.port.sender := by
  unfold startMessage at hr ⊢
  have sender : (if (h.route.address == broadcast && isRollCall h.space h.command) = true then markRoll s else s).port.sender =
      s.port.sender := by
    split
    · unfold markRoll; split <;> rfl
    · rfl
  dsimp only at hr ⊢
  generalize (if (h.route.address == broadcast && isRollCall h.space h.command) = true then markRoll s else s) = t at *
  rw [← sender]
  split
  · rename_i heard
    rw [if_pos heard] at hr
    split
    · rename_i count
      rw [if_pos count] at hr
      exact completeMessage_resetSender hr
    · rfl
  · split <;> rfl

theorem takeControlWord_resetSender (h : (takeControlWord word s).reset = true) :
    (takeControlWord word s).state.port.sender = s.port.sender ∨ (takeControlWord word s).state.port.sender = .quiet := by
  unfold takeControlWord at h ⊢
  cases ht : controlType word with
  | idle => exact .inl rfl
  | clear =>
    refine .inr ?_
    dsimp only
    rw [takeClear_eq]
    obtain ⟨address, twin, e⟩ := applyDeferred_eq s.port.sender.deferred { s with port.assembler := .idle, port.sender := .quiet }
    rw [e]
  | header =>
    rw [ht] at h
    refine .inl ((startMessage_resetSender h).trans ?_)
    rw [abandonMessage_eq]
    rfl
  | payload =>
    rw [ht] at h
    refine .inl ?_
    dsimp only at h ⊢
    unfold takePayload at h ⊢
    cases ha : s.port.assembler with
    | idle => rfl
    | skipping n => rfl
    | collecting hd n ws =>
      rw [ha] at h
      dsimp only at h ⊢
      split
      · rename_i last
        rw [if_pos last] at h
        exact completeMessage_resetSender h
      · rfl

theorem writeAnswer_quiet (h : s.port.sender = .quiet) : writeAnswer s = { state := s, reset := false } := by
  unfold writeAnswer
  rw [h]

/-- Where a device reset follows, no other address waits to be taken. -/
theorem controlAct_kept (port : ∀ y rest d, s.port.sender = .answering y rest d → d ≠ .nothing → rest = [])
    (h : (controlAct (takeControlWord word) s).reset = true) :
    keptAddress (controlAct (takeControlWord word) s).state.port =
      ((controlAct (takeControlWord word) s).state.port.address, (controlAct (takeControlWord word) s).state.port.twin) := by
  have quiet {p : RingPort} (hp : p.sender = .quiet) : keptAddress p = (p.address, p.twin) := by
    unfold keptAddress; rw [hp]
  unfold controlAct at h ⊢
  cases hs : s.port.sender with
  | quiet =>
    rw [hs] at h
    exact quiet ((takeControlWord_resetSender h).elim (fun e => e.trans hs) id)
  | answering z rest d =>
    rw [hs] at h
    dsimp only at h ⊢
    cases hk : (takeControlWord word s).state.port.sender with
    | quiet =>
      rw [writeAnswer_quiet hk]
      exact quiet hk
    | answering y rest' e =>
      cases rest' with
      | nil =>
        rw [writeAnswer_last hk]
        obtain ⟨address, twin, eq⟩ := applyDeferred_eq e
          (setSender .quiet (mapOut (onFields fun f => { f with answer := y }) (takeControlWord word s).state))
        rw [eq]
        exact quiet rfl
      | cons v vs =>
        rw [writeAnswer_more hk] at h ⊢
        rw [Bool.or_false] at h
        have same := (takeControlWord_resetSender h).resolve_right (by rw [hk]; simp)
        rw [hk] at same
        have none : e = .nothing := by
          by_contra ne
          exact List.cons_ne_nil _ _ (port y (v :: vs) e same.symm ne)
        subst none
        rfl

/-! ### The frame's end -/

theorem wordFrame_runActs (word : Word32) (slots : Vector Sample 32) (order : FrameOrder) (a : State) : ∃ l n u v w,
    WordFrame (ctxOf (takeControlWord word) (some slots) a)
      (changesRouting a (controlAct (takeControlWord word) a).state) l n (handedCommand a.port word) a u v w ∧
    controlAct (takeControlWord word) u = { state := v, reset := (controlAct (takeControlWord word) u).reset } ∧
    (ctxOf (takeControlWord word) (some slots) a).view = v.channels ∧
    (controlAct (takeControlWord word) a).state.sources = v.sources ∧
    runActs (ctxOf (takeControlWord word) (some slots) a) order (changesRouting a (controlAct (takeControlWord word) a).state) a =
      { state := w, reset := (controlAct (takeControlWord word) u).reset,
        runs := (runActs (ctxOf (takeControlWord word) (some slots) a) order
          (changesRouting a (controlAct (takeControlWord word) a).state) a).runs } := by
  obtain ⟨l, n, halves, run⟩ := runActs_halves (ctxOf (takeControlWord word) (some slots) a) order
    (changesRouting a (controlAct (takeControlWord word) a).state) a
  have around := around_steps (ctxOf (takeControlWord word) (some slots) a) l halves.early (arrival a)
  have none := half_reset (x := ctxOf (takeControlWord word) (some slots) a) halves.early (arrival a)
  have late := half_reset (x := ctxOf (takeControlWord word) (some slots) a) halves.late
    (runStep (ctxOf (takeControlWord word) (some slots) a)
      (l.foldl (runStep (ctxOf (takeControlWord word) (some slots) a)) (arrival a)) (.act .control))
  have handed := handedCommand_congr (p := a.port) around.assembler around.sender around.address.1 around.address.2 word
  have taken := takes_controlAct word (l.foldl (runStep (ctxOf (takeControlWord word) (some slots) a)) (arrival a)).state
  rw [handed] at taken
  have frame : WordFrame (ctxOf (takeControlWord word) (some slots) a)
      (changesRouting a (controlAct (takeControlWord word) a).state) l n (handedCommand a.port word) a _ _ _ :=
    ⟨halves, rfl, rfl, rfl, taken⟩
  obtain ⟨channels, sources⟩ := (takes_controlAct word a).routing
  refine ⟨l, n, _, _, _, frame, rfl, channels.trans frame.routed.1.symm, sources.trans frame.routed.2.symm, ?_⟩
  have reset : (n.foldl (runStep (ctxOf (takeControlWord word) (some slots) a))
      (runStep (ctxOf (takeControlWord word) (some slots) a)
        (l.foldl (runStep (ctxOf (takeControlWord word) (some slots) a)) (arrival a)) (.act .control))).reset =
      (controlAct (takeControlWord word)
        (l.foldl (runStep (ctxOf (takeControlWord word) (some slots) a)) (arrival a)).state).reset := by
    rw [late]
    show ((l.foldl (runStep (ctxOf (takeControlWord word) (some slots) a)) (arrival a)).reset || _) = _
    rw [none]
    exact Bool.false_or _
  rw [run, ← reset]

end Sys2Proof.Machine
end

section
/-! FrameTakesWord: a FRAME while LOCKED, whatever its control word (R155, R157, R24). -/

namespace Sys2Proof.Machine

variable {s t a u v w : State} {x : FrameCtx} {l n : List FrameStep} {routing : Bool} {o : Option (Zone × Command)}
variable {word : Word32} {out : OutFrame} {duck : Bool} {view : View} {taken : Vector Sample 8} {c : Chan}

/-! ### The word and the answer -/

theorem controlAct_alone {control : State → Turn} (h : u.port.sender = .quiet ∨ (control u).state.port.sender = .quiet) :
    controlAct control u = control u := by
  unfold controlAct
  cases hs : u.port.sender with
  | quiet => rfl
  | answering x rest d =>
    have quiet := h.resolve_left (by rw [hs]; simp)
    dsimp only
    rw [writeAnswer_quiet quiet, Bool.or_false]

/-- The state whose answer word is written. -/
def written (x : Word32) (s : State) : State :=
  { s with ringOut := s.ringOut.map fun o => { o with frame.fields.answer := x } }

/-- The answer word, written after the word was taken. -/
theorem controlAct_answers {control : State → Turn} {x : Word32} {rest : List Word32} {d : Deferred}
    (busy : u.port.sender ≠ .quiet) (h : (control u).state.port.sender = .answering x rest d) :
    (rest = [] → (controlAct control u).reset = ((control u).reset || d == .deviceReset) ∧
      (controlAct control u).state =
        if d = .deviceReset then { written x (control u).state with port.sender := .quiet }
        else ({ written x (control u).state with port.sender := .quiet } : State).once d) ∧
    (∀ y ys, rest = y :: ys → (controlAct control u).reset = (control u).reset ∧
      (controlAct control u).state = { written x (control u).state with port.sender := .answering y ys d }) := by
  unfold controlAct
  cases hs : u.port.sender with
  | quiet => exact absurd hs busy
  | answering z zs e =>
    refine ⟨?_, ?_⟩
    · rintro rfl
      dsimp only
      rw [writeAnswer_last h]
      cases d <;> exact ⟨rfl, rfl⟩
    · rintro y ys rfl
      dsimp only
      rw [writeAnswer_more h, Bool.or_false]
      exact ⟨rfl, rfl⟩

/-! ### From the frame in hand to the state it found -/

theorem schedInv_inHand (inv : SchedInv s) : SchedInv (inHand out duck s) :=
  inv.of_same ⟨rfl, rfl, rfl, fun _ => rfl, fun _ => .inl rfl⟩

theorem metered_inHand {runs : Chan → ChannelRun} (h : Metered runs view (inHand out duck s) u) : Metered runs view s u :=
  h.congr rfl rfl

theorem frameRun_found (out : OutFrame) (duck : Bool) (s x : State) (view : View) (taken : Vector Sample 8) :
    frameRun (inHand out duck s) x view taken = frameRun s x view taken := by
  funext c
  exact frameRun_congr rfl rfl rfl rfl view taken c

theorem chainsAfter_found {run : ChannelRun} (h : ChainsAfter (inHand out duck s) run c w) :
    ChainsAfter s run c (mapOut recheck w) := ⟨h.active, h.arrived, h.target⟩

theorem audioMoves_found {f f' g : FrameFields} {y : State} (h : AudioMoves (inHand out duck s) y view taken f g w)
    (slots : f.slots = f'.slots) : AudioMoves s y view taken f' g (mapOut recheck w) := by
  obtain ⟨written, passed, delays⟩ := h
  rw [frameRun_found] at delays
  rw [slots] at passed
  exact ⟨written, passed, delays⟩

theorem fadesAfter_found (h : FadesAfter (inHand out duck s) view w) : FadesAfter s view (mapOut recheck w) :=
  ⟨h.goesOn, h.arrives, h.onlyThese⟩

theorem FrameActs.rechecked (h : FrameActs v w) : FrameActs v (mapOut recheck w) := by
  obtain ⟨zones, speed, stands, changes⟩ := h.plan
  exact (h.around.trans around_recheck).frameActs ⟨zones, speed, stands, changes⟩

theorem changesRouting_iff {before after : State} : changesRouting before after = true ↔
    after.sources ≠ before.sources ∨ ∃ c : Chan, after.channels[c].out ≠ none ∧ before.channels[c].out = none := by
  unfold changesRouting enabled
  simp only [Bool.or_eq_true, bne_iff_ne, List.any_eq_true, Bool.and_eq_true, Bool.not_eq_true', List.mem_finRange, true_and]
  refine or_congr ne_comm (exists_congr fun c => ?_)
  cases before.channels[c].out <;> cases after.channels[c].out <;> simp

/-! ### The audio -/

/-- The frame's audio, made of the state `x` on the records the word leaves. -/
def Heard (s x u v t : State) (f o : FrameFields) : Prop :=
  AudioMoves s x v.channels (samplesFrom x f.slots) f o t ∧
  ((Metered (frameRun s x v.channels (samplesFrom x f.slots)) v.channels s u ∧ t.output = v.output) ∨
    (u.output = s.output ∧ Metered (frameRun s x v.channels (samplesFrom x f.slots)) v.channels v t)) ∧
  (SchedInv s → ∀ c : Chan, s.channels[c].out ≠ none → v.channels[c].out ≠ none →
    ChainsAfter s (frameRun s x v.channels (samplesFrom x f.slots) c) c t)

/-- The frame that the word leaves, and the one that leaves. -/
theorem WordFrame.leaves (h : WordFrame x routing l n o a u v w) (hand : a.ringOut = some out) : ∃ z y,
    v.ringOut = some z ∧ w.ringOut = some y ∧ y.judged = out.judged ∧ y.frame.sync = out.frame.sync := by
  obtain ⟨x', hx', judged, sync, -⟩ := h.early.frame out hand
  obtain ⟨roll, answer, taken⟩ := h.taken.out
  rw [Option.mem_def.mp hx', Option.map_some] at taken
  obtain ⟨y, hy, judged', sync', -⟩ := h.late.frame _ taken
  exact ⟨_, y, taken, hy, judged'.trans judged, sync'.trans sync⟩

section
variable {f : FrameFields} {y : OutFrame}
variable (h : WordFrame x routing l n o (inHand out duck s) u v w) (seen : x.view = v.channels)
variable (currents : x.currents = s.ramp.currents) (step : x.step = occupied s) (intact : x.slots = some f.slots)
variable (fields : out.frame.fields = f) (once : WrittenOnce v.channels) (leaves : w.ringOut = some y)
include h seen currents step intact fields once leaves

theorem WordFrame.heard_first (plain : routing = false)
    (on : ∀ c : Chan, v.channels[c].out ≠ none → s.channels[c].out ≠ none) :
    Heard s s u v (mapOut recheck w) f y.frame.fields := by
  have run : runOf x (inHand out duck s) = frameRun (inHand out duck s) (inHand out duck s) x.view (samplesFrom s f.slots) :=
    runOf_eq currents step (by rw [intact, sourceSamples_intact]; rfl)
  have run' : runOf x (inHand out duck s) = frameRun s s v.channels (samplesFrom s f.slots) := by
    rw [run, frameRun_inHand, seen]
  refine ⟨?_, ?_, fun inv c on' on'' => ?_⟩
  · have moves := h.moves_first plain seen once on rfl leaves run
    obtain ⟨written, passed, delays⟩ := audioMoves_found moves (congrArg FrameFields.slots fields)
    rw [show frameRun s (inHand out duck s) v.channels (samplesFrom s f.slots) = frameRun s s v.channels (samplesFrom s f.slots)
      from funext fun c => frameRun_congr rfl rfl rfl rfl _ _ c] at delays
    exact ⟨written, passed, delays⟩
  · have hears := h.hears_first plain
    rw [run', seen] at hears
    exact hears.imp (fun ⟨m, e⟩ => ⟨metered_inHand m, (gaugePart_eq_iff.mp e).1⟩)
      fun ⟨e, m⟩ => ⟨(gaugePart_eq_iff.mp e).1, m.congr rfl rfl⟩
  · have inv' := schedInv_inHand (out := out) (duck := duck) inv
    have pages := h.pages_first plain inv' seen step
    have chains := chainsAfter_found (chains_of_pages (q := arrival (inHand out duck s)) pages inv' run on' (by rw [seen]; exact on''))
    rw [show frameRun (inHand out duck s) (arrival (inHand out duck s)).state x.view (samplesFrom s f.slots) =
      frameRun s s v.channels (samplesFrom s f.slots) from run.symm.trans run'] at chains
    exact chains

theorem WordFrame.heard_after (rerouted : routing = true) : Heard s v u v (mapOut recheck w) f y.frame.fields := by
  have run : runOf x v = frameRun (inHand out duck s) v x.view (samplesFrom v f.slots) :=
    runOf_eq currents step (by rw [intact, sourceSamples_intact])
  have run' : runOf x v = frameRun s v v.channels (samplesFrom v f.slots) := by rw [run, frameRun_found, seen]
  refine ⟨?_, ?_, fun inv c on' on'' => ?_⟩
  · obtain ⟨z, -, hz, -, -⟩ := h.leaves (out := out) rfl
    have slots : z.frame.fields.slots = f.slots := by
      have same := h.found_after rerouted
      rw [hz] at same
      exact (Option.some.inj same).trans (congrArg FrameFields.slots fields)
    exact audioMoves_found (h.moves_after rerouted seen once hz leaves run) slots
  · have hears := h.hears_after rerouted
    rw [run', seen] at hears
    exact .inr ⟨hears.1, hears.2.congr rfl rfl⟩
  · have inv' := schedInv_inHand (out := out) (duck := duck) inv
    obtain ⟨q, rfl, pages⟩ := h.pages_after rerouted inv' seen step
    have chains := chainsAfter_found (chains_of_pages pages inv' run on' (by rw [seen]; exact on''))
    rw [← run, run'] at chains
    exact chains

end

theorem WordFrame.fades (h : WordFrame x routing l n o (inHand out duck s) u v w) (seen : x.view = v.channels)
    (step : x.step = occupied s) (inv : SchedInv s) : FadesAfter s v.channels (mapOut recheck w) := by
  have inv' := schedInv_inHand (out := out) (duck := duck) inv
  have end_ := (h.sched inv').2.2
  have channels : w.channels = x.view := h.late.channels.trans seen.symm
  rw [← seen]
  cases routing with
  | false => exact fadesAfter_found ((h.pages_first rfl inv' seen step).fadesAfter inv' end_ channels)
  | true =>
    obtain ⟨q, -, pages⟩ := h.pages_after rfl inv' seen step
    exact fadesAfter_found (pages.fadesAfter inv' end_ channels)

/-! ### The frame -/

/-- A FRAME while LOCKED: its acts around the word, and how it ends. -/
theorem exec_wordFrame (hr : s.pins.reset = false) (hl : s.port.lock = .locked) (port : PortInv s) (f : FrameFields)
    (duck : Bool) (order : FrameOrder) {a : State}
    (ha : a = inHand { frame := { sync := syncPattern, fields := f, check := checkValue f }, judged := .intact } duck s) :
    ∃ l n u v w, WordFrame (ctxOf (takeControlWord f.control) (some f.slots) a)
        (changesRouting a (controlAct (takeControlWord f.control) a).state) l n (handedCommand a.port f.control) a u v w ∧
      (controlAct (takeControlWord f.control) u).state = v ∧
      (ctxOf (takeControlWord f.control) (some f.slots) a).view = v.channels ∧
      (controlAct (takeControlWord f.control) a).state.sources = v.sources ∧
      exec (.frame f duck order) s = .next (if (controlAct (takeControlWord f.control) u).reset = true
        then State.blocksReset (mapOut recheck w).pins (mapOut recheck w).port.address (mapOut recheck w).port.twin
          (mapOut recheck w).ringOut (mapOut recheck w).pending
        else mapOut recheck w) := by
  obtain ⟨l, n, u, v, w, frame, turn, seen, sources, run⟩ := wordFrame_runActs f.control f.slots order a
  have turned : (controlAct (takeControlWord f.control) u).state = v := congrArg Turn.state turn
  refine ⟨l, n, u, v, w, frame, turned, seen, sources, ?_⟩
  have path : arrived { frame := { sync := syncPattern, fields := f, check := checkValue f }, judged := .intact } duck
      { s with port.misses := 0 } = a := ha.symm
  rw [exec_frame_locked hr hl, samplePath_eq, path, run]
  refine congrArg Host.Outcome.next ?_
  unfold Turn.finish
  dsimp only
  split
  · rename_i reset
    have sender : a.port.sender = s.port.sender := by rw [ha]; rfl
    have kept := controlAct_kept (fun y rest d e => port.deferred y rest d (by rw [← sender, ← frame.early.sender, e])) reset
    rw [turned] at kept
    have late := frame.late
    have same : keptAddress (mapOut recheck w).port = (w.port.address, w.port.twin) := by
      rw [mapOut_port, late.address.1, late.address.2, ← kept]
      unfold keptAddress
      rw [late.sender, late.address.1, late.address.2]
    unfold deviceReset
    rw [same]
    rfl
  · rfl

/-- Settles O59: the acts before the word and after it, each counted where it falls. -/
theorem frameTakesWord : Obligations.FrameTakesWord := by
  intro s f duck order hr hl routing port
  dsimp only
  obtain ⟨a, ha⟩ : ∃ a, a = inHand { frame := { sync := syncPattern, fields := f, check := checkValue f },
                                     judged := .intact } duck s := ⟨_, rfl⟩
  obtain ⟨l, n, u, v, w, frame, turned, seen, sources, run⟩ := exec_wordFrame hr hl port f duck order ha
  have once : WrittenOnce v.channels := by
    have routing' : RoutingInv a := by
      rw [ha]
      exact ⟨routing.writtenOnce, routing.notRead, routing.taps, routing.placement, routing.levels⟩
    have after := keptRouting.controlAct a (takeControlWord f.control) (fun s hs => keptRouting.takeControlWord s _ hs) routing'
    rw [← seen]
    exact after.writtenOnce
  have rerouted := changesRouting_iff (before := a) (after := (controlAct (takeControlWord f.control) a).state)
  rw [sources, show (controlAct (takeControlWord f.control) a).state.channels = v.channels from seen] at rerouted
  generalize changesRouting a (controlAct (takeControlWord f.control) a).state = routing' at frame rerouted
  subst ha
  obtain ⟨z, y, -, leaves, judged, sync⟩ := frame.leaves 
    (out := { frame := { sync := syncPattern, fields := f, check := checkValue f }, judged := .intact }) rfl
  have early := frame.early
  have sender : u.port.sender = s.port.sender := early.sender
  have renewed : recheck y = { y with frame.check := checkValue y.frame.fields } := by unfold recheck; rw [judged]
  have left := renewed.trans (outFrame_eq (y := { y with frame.check := checkValue y.frame.fields }) judged sync rfl)
  refine ⟨u, v, mapOut recheck w, y.frame.fields, (controlAct (takeControlWord f.control) u).reset, early, fun quiet => ?_,
    fun x rest d busy answers => ?_, frame.late.rechecked, ?_, run, fun i k present => ?_, fun k => ⟨fun more => ?_, ?_⟩,
    frame.line.1, fun last => frame.line.2 last.le, fun k => ⟨fun more => ((frame.prescaler k).1 more).2, ?_⟩,
    frame.tracker, fun same => ?_, fun inv => ?_, fun same on => ?_, fun change => ?_⟩
  · have alone := controlAct_alone (control := takeControlWord f.control) (quiet.imp_left fun e => sender.trans e)
    rw [← turned, alone]
    exact ⟨rfl, rfl⟩
  · obtain ⟨last, more⟩ := controlAct_answers (control := takeControlWord f.control) (fun e => busy (sender.symm.trans e)) answers
    rw [turned] at last more
    exact ⟨last, more⟩
  · show w.ringOut.map recheck = _
    rw [leaves]
    exact congrArg some left
  · cases routing' with
    | false => exact frame.held_first rfl (by_contra fun ne => by simp [ne] at rerouted) rfl present
    | true => exact frame.held_after rfl rfl present
  · exact ((frame.prescaler k).1 more).1
  · exact (frame.prescaler k).2
  · refine (frame.lanes k).imp (fun ⟨counts, stands⟩ => ⟨?_, stands⟩) fun ⟨stands, counts⟩ => ⟨stands, ?_⟩
    · exact counts.imp (fun c => c.congr rfl rfl rfl) fun c => c.congr rfl rfl rfl
    · exact counts.imp (fun c => c.congr rfl rfl rfl) fun c => c.congr rfl rfl rfl
  · rcases frame.tracker with ⟨now, stays⟩ | ⟨before, now⟩
    · exact stays.trans (same.trans now)
    · exact now.trans (by rw [same, before]; rfl)
  · exact frame.fades seen rfl inv
  · have plain : routing' = false := by
      rw [← Bool.not_eq_true, rerouted, not_or, not_not]
      exact ⟨same, fun ⟨c, now, off⟩ => on c now off⟩
    exact frame.heard_first seen rfl rfl rfl rfl once leaves plain on
  · exact frame.heard_after seen rfl rfl rfl rfl once leaves (rerouted.mpr change)

end Sys2Proof.Machine
end
